-- ==== Sys2Proof/Word.lean ====
section
/-! DEFINITION. The widths of the engine's values (00_scope.md R5): names for bit vectors, no arithmetic of our own. -/

namespace Sys2Proof

/-- A command word: 32 bits (R5, 30_encoding.md R70). -/
abbrev Word := BitVec 32

/-- A response word: 20 bits, ERR in 19..16 and DATA in 15..0 (R5, 30_encoding.md R81). -/
abbrev RspWord := BitVec 20

/-- A block, `BLOCK_W` = 16 bits (R5). -/
abbrev Block := BitVec 16

/-- A half block, `HALF_W` = 8 bits (R5). -/
abbrev Half := BitVec 8

/-- A root key, subkey, expanded half or substitution input: `KEY_W` = `EXP_W` = `SBOX_IN_W` = 12 bits
(R5, 90_conflicts.md C1). -/
abbrev Key := BitVec 12

/-- A cell of a substitution table: 4 bits (R5). -/
abbrev Nibble := BitVec 4

end Sys2Proof
end

