-- ==== Sys2Proof/Config.lean ====
section
/-! DEFINITION. What the spec leaves to the implementation (00_scope.md R6: "A model must not give these parameters
default values") and the free values: constants with NO body, so no proof can rest on a value of theirs. -/

namespace Sys2Proof

/-- The contents of table S1, cell `(p, q)` (00_scope.md R6, 93_implementation_defined.md I1; log 1). -/
opaque Config.SBOX1 : Fin 4 → Fin 16 → Nibble

/-- The contents of table S2, cell `(p, q)` (00_scope.md R6, 93_implementation_defined.md I1; log 1). -/
opaque Config.SBOX2 : Fin 4 → Fin 16 → Nibble

/-- All that the latency of a command may depend on (70_reset_and_hazards.md R239, R240; log 6): the command, the ROUNDS
of a `CFG`, and NROUNDS where the engine is configured. No BLOCK, KEY, X, HALF, SUBKEY or INDEX stands here. -/
structure LatKey where
  /-- The opcode field of the accepted word. -/
  op : BitVec 4
  /-- The word has a reserved bit set (30_encoding.md R83, class 2). -/
  reserved : Bool
  /-- The ROUNDS field of a `CFG`; 0 for every other opcode. -/
  cfgRounds : BitVec 8
  /-- NROUNDS; `none` while CONFIGURED = 0, when NROUNDS is unread (10_state.md R26). -/
  nrounds : Option (BitVec 8)
deriving DecidableEq, Repr

/-- LAT(cmd) - 1: `LAT(cmd) ≥ 1` and finite (00_scope.md R6, 70_reset_and_hazards.md R239, I2; log 6). -/
opaque Config.extraLat : LatKey → Nat

/-- FREE VALUE: what L holds after the n-th step, if that step's command used L (10_state.md R20, I5; log 7). -/
opaque Config.freeL : Nat → Half

/-- FREE VALUE: what R holds after the n-th step, if that step's command used R (10_state.md R20, I5; log 7). -/
opaque Config.freeR : Nat → Half

/-- FREE VALUE: what RC holds after the n-th step, if that step's command used RC; a legal value, 0 to 254
(10_state.md R22, R29, I5; log 7). -/
opaque Config.freeRC : Nat → Fin 255

/-- FREE VALUE: what `rsp_word` shows after the n-th step while `rsp_valid = 0` (40_control.md R100, I6; log 10). -/
opaque Config.freeRspWord : Nat → RspWord

end Sys2Proof
end

