-- ==== Sys2Proof/Syntax.lean ====
section
/-! DEFINITION. The commands of the engine (30_encoding.md R71, R72; spec/opcode_table.json), one constructor per row. -/

namespace Sys2Proof

/-- One command with its operands, each an unsigned field taken straight from the command word (30_encoding.md R74). -/
inductive Instr where
  /-- `NOP` (40_control.md R105). -/
  | nop
  /-- `CFG KEY, ROUNDS` (42_key_schedule.md R144). -/
  | cfg (rounds : BitVec 8) (key : Key)
  /-- `ENC BLOCK` (44_feistel_engine.md R182). -/
  | enc (block : Block)
  /-- `DEC BLOCK` (44_feistel_engine.md R183). -/
  | dec (block : Block)
  /-- `RND BLOCK, SUBKEY` (43_round_function.md R166). -/
  | rnd (subkey : Key) (block : Block)
  /-- `SBOX X` (41_sbox.md R125). -/
  | sbox (x : Key)
  /-- `EXP HALF` (43_round_function.md R165). -/
  | exp (half : Half)
  /-- `SKEY INDEX` (42_key_schedule.md R145). -/
  | skey (index : BitVec 8)
deriving DecidableEq, Repr

end Sys2Proof
end

