-- ==== Sys2Proof/WellFormed.lean ====
section
/-! DEFINITION. Well-formedness. An `Instr` needs no check: each operand is a bit vector of its field's own width
(30_encoding.md R74). The checks are on a command AS A PROGRAMMER WRITES IT, whose operands are numbers of any size:
"An operand too wide for its field is an assembly error and is never truncated" (R86; 93_implementation_defined.md I15, I16). -/

namespace Sys2Proof

/-- Every command term is well formed: its operands have their fields' widths by type (R74, log 19). -/
def Instr.wellFormed : Instr → Bool
  | .nop => true
  | .cfg _ _ => true
  | .enc _ => true
  | .dec _ => true
  | .rnd _ _ => true
  | .sbox _ => true
  | .exp _ => true
  | .skey _ => true

/-- One line of assembly with its operands as numbers, in the source order of 30_encoding.md R86. -/
inductive Source where
  | nop
  /-- `cfg KEY, ROUNDS`; without ROUNDS it is the pseudo-instruction of R87. -/
  | cfg (key : Nat) (rounds : Option Nat)
  | enc (block : Nat)
  | dec (block : Nat)
  | rnd (block : Nat) (subkey : Nat)
  | sbox (x : Nat)
  | exp (half : Nat)
  | skey (index : Nat)
  /-- The directive `.word W`. -/
  | word (w : Nat)
deriving DecidableEq, Repr

/-- Each operand fits its field (R86): a 12-bit key (I15), 0 to 255 rounds (I16), and the other widths of R72. -/
def Source.wellFormed : Source → Bool
  | .nop => true
  | .cfg key rounds => decide (key < 2 ^ 12) && decide (rounds.getD 6 < 2 ^ 8)
  | .enc block => decide (block < 2 ^ 16)
  | .dec block => decide (block < 2 ^ 16)
  | .rnd block subkey => decide (block < 2 ^ 16) && decide (subkey < 2 ^ 12)
  | .sbox x => decide (x < 2 ^ 12)
  | .exp half => decide (half < 2 ^ 8)
  | .skey index => decide (index < 2 ^ 8)
  | .word w => decide (w < 2 ^ 32)

end Sys2Proof
end

