-- ==== Sys2Proof/Decode.lean ====
section
/-! DEFINITION. The error codes, the opcode table, the decoder (total, rejecting by the spec's error names) and the encoder
(30_encoding.md R70 to R75, R83, R84; 60_exceptions.md R202). -/

namespace Sys2Proof

/-- The error codes 1 to 4 of 60_exceptions.md R202 (code 0 is success; 5 to 15 are never produced). -/
inductive ErrCode where
  /-- 1: the opcode is 0x8 to 0xF. -/
  | illegalOpcode
  /-- 2: a reserved field is not zero. -/
  | reservedField
  /-- 3: CONFIGURED = 0. -/
  | notConfigured
  /-- 4: INDEX ≥ NROUNDS. -/
  | subkeyIndex
deriving DecidableEq, Repr

/-- The code as it stands in `RSP[19:16]` (60_exceptions.md R202). -/
def ErrCode.code : ErrCode → BitVec 4
  | .illegalOpcode => 1
  | .reservedField => 2
  | .notConfigured => 3
  | .subkeyIndex => 4

/-- The opcode field, bits 31..28 of every command (30_encoding.md R70). -/
def opcodeOf (w : Word) : BitVec 4 := w.extractLsb' 28 4

/-- `RSVD[op]`, the reserved-bit masks of 30_encoding.md R73 (0 for an illegal opcode, which has no row). -/
def rsvdMask (op : BitVec 4) : Word :=
  match op.toNat with
  | 0 => 0x0FFFFFFF
  | 1 => 0x000FF000
  | 2 => 0x0FFF0000
  | 3 => 0x0FFF0000
  | 4 => 0x00000000
  | 5 => 0x0FFFF000
  | 6 => 0x0FFFFF00
  | 7 => 0x0FFFFF00
  | _ => 0

/-- Whether a reserved bit of the word's opcode is set (30_encoding.md R83, class 2). -/
def hasReservedBit (w : Word) : Bool := w &&& rsvdMask (opcodeOf w) != 0

/-- The command of a word with a legal opcode and no reserved bit set (the last `match` of 30_encoding.md R84). -/
def commandOf (w : Word) : Instr :=
  match (opcodeOf w).toNat with
  | 0 => .nop
  | 1 => .cfg (w.extractLsb' 20 8) (w.extractLsb' 0 12)
  | 2 => .enc (w.extractLsb' 0 16)
  | 3 => .dec (w.extractLsb' 0 16)
  | 4 => .rnd (w.extractLsb' 16 12) (w.extractLsb' 0 16)
  | 5 => .sbox (w.extractLsb' 0 12)
  | 6 => .exp (w.extractLsb' 0 8)
  | _ => .skey (w.extractLsb' 0 8)

/-- The decoder of 30_encoding.md R84, total on all words. -/
def decode (w : Word) : Except ErrCode Instr :=
  if 8 ≤ (opcodeOf w).toNat then .error .illegalOpcode
  else if hasReservedBit w then .error .reservedField
  else .ok (commandOf w)

/-- The word of a command, written as the pattern strings of 30_encoding.md R72 from bit 31 down. -/
def encode : Instr → Word
  | .nop => 0x0#4 ++ 0#28
  | .cfg rounds key => 0x1#4 ++ rounds ++ 0#8 ++ key
  | .enc block => 0x2#4 ++ 0#12 ++ block
  | .dec block => 0x3#4 ++ 0#12 ++ block
  | .rnd subkey block => 0x4#4 ++ subkey ++ block
  | .sbox x => 0x5#4 ++ 0#16 ++ x
  | .exp half => 0x6#4 ++ 0#20 ++ half
  | .skey index => 0x7#4 ++ 0#20 ++ index

/-- The `MATCH` column of 30_encoding.md R73. -/
def Instr.matchWord : Instr → Word
  | .nop => 0x00000000
  | .cfg _ _ => 0x10000000
  | .enc _ => 0x20000000
  | .dec _ => 0x30000000
  | .rnd _ _ => 0x40000000
  | .sbox _ => 0x50000000
  | .exp _ => 0x60000000
  | .skey _ => 0x70000000

/-- The `MASK` column of 30_encoding.md R73. -/
def Instr.maskWord : Instr → Word
  | .nop => 0xFFFFFFFF
  | .cfg _ _ => 0xF00FF000
  | .enc _ => 0xFFFF0000
  | .dec _ => 0xFFFF0000
  | .rnd _ _ => 0xF0000000
  | .sbox _ => 0xFFFFF000
  | .exp _ => 0xFFFFFF00
  | .skey _ => 0xFFFFFF00

/-- The command the decoder reads from the table's bits: every command is one whole 32-bit word moved in parallel
(20_memory.md R54), so the bits ARE the word; `none` where the decoder answers with an error. -/
def decodeTableWord (nbits w : Nat) : Option Instr :=
  match decode (BitVec.ofNat 32 (w % 2 ^ nbits)) with
  | .ok i => some i
  | .error _ => none

end Sys2Proof
end

