-- ==== Sys2Proof/Machine/State.lean ====
section
/-! DEFINITION. The state of the engine and of the host that drives it, as plain data (10_state.md R20 to R33,
40_control.md R100), the reasons a step stops, and the state right after reset. -/

namespace Sys2Proof.Machine

/-- The configuration registers (10_state.md R33). -/
structure Cfg where
  /-- CONFIGURED, 1 bit (R23). -/
  configured : Bool
  /-- KEY, the root key (R25). -/
  key : Key
  /-- NROUNDS, the round count N (R26). -/
  nrounds : BitVec 8
deriving DecidableEq, Repr

/-- PHASE, the state of the command interface (10_state.md R27). -/
inductive Phase where
  | idle
  | busy
  | resp
deriving DecidableEq, Repr

/-- The working registers L and R and the round counter RC (10_state.md R20 to R22, R29; log 7). -/
structure Work where
  l : Half
  r : Half
  rc : BitVec 8
deriving DecidableEq, Repr

/-- The two read-only substitution tables, each 4 × 16 cells of 4 bits, addressed `(p, q)` (10_state.md R31; log 1). -/
structure Tables where
  sbox1 : Vector (Vector Nibble 16) 4
  sbox2 : Vector (Vector Nibble 16) 4
deriving DecidableEq, Repr

/-- What the host drives on the engine's input ports at one rising edge, and whether it looks at `rsp_word` there
(40_control.md R100, R104). -/
structure PortIn where
  rst : Bool
  cmdValid : Bool
  cmdWord : Word
  rspReady : Bool
  /-- The host reads `rsp_word` in this cycle (the duty of R104 is on this action; 93_implementation_defined.md I10). -/
  readsRsp : Bool
deriving DecidableEq, Repr

/-- The run since the last reset: the words accepted and the responses taken, oldest first (40_control.md R106;
the model's own record, log 17). -/
structure RunLog where
  accepted : List Word
  taken : List RspWord
deriving DecidableEq, Repr

/-- The whole state. The first seven fields are the engine's (10_state.md R29, R31, R33); the last four are the host's
and the model's own. -/
structure State where
  /-- CONFIGURED, KEY and NROUNDS. -/
  cfg : Cfg
  /-- PHASE. -/
  phase : Phase
  /-- The rising edges left until PHASE becomes RESP, while BUSY (R33). -/
  cyclesLeft : Nat
  /-- CUR, the accepted command word (R28). -/
  cur : Word
  /-- RSP, the response word (R28). -/
  rsp : RspWord
  /-- L, R and RC. -/
  work : Work
  /-- SBOX1 and SBOX2. -/
  tables : Tables
  /-- The port values of the coming edges, the next one first; past its end the host is quiet (log 4). -/
  script : List PortIn
  /-- The word offered at the last edge and not accepted there (40_control.md R104; log 12). -/
  offer : Option Word
  /-- The run since the last reset. -/
  log : RunLog
  /-- The number of steps taken: the argument of the free values (log 7). -/
  tick : Nat
deriving DecidableEq, Repr

/-- The engine itself never faults (60_exceptions.md R200, R213): no constructor. -/
inductive Fault where
deriving DecidableEq, Repr

/-- Why the model gives a step no meaning. -/
inductive Refusal where
  /-- Raised by an arm of `exec` whose instruction has no meaning yet: none in this model. Safe. -/
  | notModelled (mnemonic : String)
  /-- Raised by the clock edge where the host changes `cmd_word` while offering a word not yet accepted. The spec says to
  refuse it (40_control.md R104, 93_implementation_defined.md I8). Unsafe for a host that breaks the duty: the engine would
  accept one of the two words. -/
  | hostChangedCmdWord
  /-- Raised by the clock edge where the host reads `rsp_word` while `rsp_valid = 0`. The spec says to refuse it
  (93_implementation_defined.md I10). Unsafe for a host that breaks the duty: it would see any value. -/
  | hostReadInvalidRsp
deriving DecidableEq, Repr

/-- The answer of a step. -/
abbrev Answer := Host.Outcome State Fault Refusal

/-- Two tables from their cell functions. -/
def Tables.ofCells (s1 s2 : Fin 4 → Fin 16 → Nibble) : Tables where
  sbox1 := Vector.ofFn fun p => Vector.ofFn fun q => s1 p q
  sbox2 := Vector.ofFn fun p => Vector.ofFn fun q => s2 p q

/-- The state right after reset: PHASE = IDLE and CONFIGURED = 0 (70_reset_and_hazards.md R230), the tables as built
(R233; log 1), every other register at the value log 2 names, and a host that has not yet done anything (log 4). -/
def State.reset : State where
  cfg := { configured := false, key := 0, nrounds := 0 }
  phase := .idle
  cyclesLeft := 0
  cur := 0
  rsp := 0
  work := { l := 0, r := 0, rc := 0 }
  tables := Tables.ofCells Config.SBOX1 Config.SBOX2
  script := []
  offer := none
  log := { accepted := [], taken := [] }
  tick := 0

end Sys2Proof.Machine
end

