-- ==== Sys2Proof/Machine/Operands.lean ====
section
/-! DEFINITION. Fields, concatenations and extensions of the engine's values (00_scope.md R7 to R11, 20_memory.md R52,
30_encoding.md R74). -/

namespace Sys2Proof.Machine

/-- L of a block: `BLOCK[15:8]`, the first half (00_scope.md R14, 10_state.md R21, 20_memory.md R52). -/
def blockL (b : Block) : Half := b.extractLsb' 8 8

/-- R of a block: `BLOCK[7:0]`, the second half (00_scope.md R14, 10_state.md R21, 20_memory.md R52). -/
def blockR (b : Block) : Half := b.extractLsb' 0 8

/-- Two halves as a block, the first in the high byte (00_scope.md R10, 20_memory.md R53). -/
def joinHalves (hi lo : Half) : Block := hi ++ lo

/-- `swap16(b) = b[7:0] ‖ b[15:8]` (00_scope.md R11). -/
def swap16 (b : Block) : Block := joinHalves (blockR b) (blockL b)

/-- `rotl_12(v, 1) = v[10:0] ‖ v[11]` (00_scope.md R11, 42_key_schedule.md R140). -/
def rotl12 (v : Key) : Key := v.extractLsb' 0 11 ++ v.extractLsb' 11 1

/-- `rotl_12(v, n)`: `n` rotations by one place (00_scope.md R11). -/
def rotl12By (v : Key) : Nat → Key
  | 0 => v
  | n + 1 => rotl12 (rotl12By v n)

/-- `zext_16` of a 12-bit result (00_scope.md R11, 30_encoding.md R82). -/
def zext16of12 (v : Key) : BitVec 16 := 0#4 ++ v

/-- `zext_16` of an 8-bit result (00_scope.md R11, 30_encoding.md R82). -/
def zext16of8 (v : Half) : BitVec 16 := 0#8 ++ v

/-- `p1 = X[11:10]` (41_sbox.md R121). -/
def fieldP1 (x : Key) : BitVec 2 := x.extractLsb' 10 2

/-- `q1 = X[9:6]` (41_sbox.md R121). -/
def fieldQ1 (x : Key) : BitVec 4 := x.extractLsb' 6 4

/-- `p2 = X[5:4]` (41_sbox.md R121). -/
def fieldP2 (x : Key) : BitVec 2 := x.extractLsb' 4 2

/-- `q2 = X[3:0]` (41_sbox.md R121). -/
def fieldQ2 (x : Key) : BitVec 4 := x.extractLsb' 0 4

end Sys2Proof.Machine
end

