-- ==== Sys2Proof/Machine/Ops.lean ====
section
/-! DEFINITION. The named operations on registers, tables and responses, the error response (this machine's one form of
exception, 60_exceptions.md R200 to R206: there is no trap entry and no return) and the moves of PHASE. -/

namespace Sys2Proof.Machine

/-- `SboxRead(1, p, q)` (41_sbox.md R120). -/
def Tables.read1 (t : Tables) (p : BitVec 2) (q : BitVec 4) : Nibble := (t.sbox1.get p.toFin).get q.toFin

/-- `SboxRead(2, p, q)` (41_sbox.md R120). -/
def Tables.read2 (t : Tables) (p : BitVec 2) (q : BitVec 4) : Nibble := (t.sbox2.get p.toFin).get q.toFin

/-- A response word, `ERR ‖ DATA` (30_encoding.md R81). -/
def rspOf (err : BitVec 4) (data : BitVec 16) : RspWord := err ++ data

/-- A response word is written to RSP and PHASE goes to RESP (40_control.md R101). -/
def State.answer (word : RspWord) (s : State) : State := { s with rsp := word, phase := .resp }

/-- `respond(data16)`: error code 0 and the data (00_scope.md R12, 30_encoding.md R81). -/
def State.respond (data : BitVec 16) (s : State) : State := s.answer (rspOf 0 data)

/-- The response word of an error: the code and DATA = 0x0000 (30_encoding.md R81, 60_exceptions.md R201). -/
def errorWord (e : ErrCode) : RspWord := rspOf e.code 0

/-- `raise Error(code)` (60_exceptions.md R201): the command ends, no configuration register is written, the response is
`code ‖ 0x0000`, and the engine goes to RESP like any other command. -/
def State.raiseError (e : ErrCode) (s : State) : State := s.answer (errorWord e)

/-- KEY, NROUNDS and CONFIGURED are written together (42_key_schedule.md R144). -/
def State.writeCfg (c : Cfg) (s : State) : State := { s with cfg := c }

/-- `L <- l ; R <- r` (10_state.md R20). -/
def State.writeHalves (l r : Half) (s : State) : State := { s with work := { s.work with l := l, r := r } }

/-- `L <- BLOCK[15:8] ; R <- BLOCK[7:0]` (10_state.md R21). -/
def State.loadBlock (b : Block) (s : State) : State := s.writeHalves (blockL b) (blockR b)

/-- `RC <- r` (10_state.md R22). -/
def State.writeRC (r : Nat) (s : State) : State := { s with work := { s.work with rc := BitVec.ofNat 8 r } }

/-- A command that used L and R is over: they hold no architectural value, any value (10_state.md R20, I5; log 7). -/
def State.releaseHalves (s : State) : State := s.writeHalves (Config.freeL s.tick) (Config.freeR s.tick)

/-- A command that used L, R and RC is over: they hold any value, RC a legal one (10_state.md R20, R22, I5; log 7). -/
def State.releaseWork (s : State) : State := (s.writeRC (Config.freeRC s.tick).val).releaseHalves

end Sys2Proof.Machine
end

