-- ==== Sys2Proof/Machine/Flags.lean ====
section
/-! DEFINITION. CONFIGURED, the engine's one flag (10_state.md R23, R24), and the checks made on it before a command is
performed (60_exceptions.md R203). -/

namespace Sys2Proof.Machine

/-- The configuration a `CFG` leaves: `KEY <- key ; NROUNDS <- rounds ; CONFIGURED <- 1` (42_key_schedule.md R144). -/
def configuredWith (key : Key) (rounds : BitVec 8) : Cfg := { configured := true, key := key, nrounds := rounds }

/-- `if CONFIGURED = 0 then raise Error(NOT_CONFIGURED)`, else the rest of the command
(44_feistel_engine.md R182, R183; 42_key_schedule.md R145). -/
def State.ifConfigured (k : State → Answer) (s : State) : Answer :=
  if s.cfg.configured then k s else .next (s.raiseError .notConfigured)

/-- What reset does to the flag, leaving KEY and NROUNDS (70_reset_and_hazards.md R230). -/
def Cfg.cleared (c : Cfg) : Cfg := { c with configured := false }

/-- `precheck(cfg, cmd)` (60_exceptions.md R203): the error a decoded command gives before it is performed, if any. -/
def precheck (c : Cfg) : Instr → Option ErrCode
  | .enc _ => if c.configured then none else some .notConfigured
  | .dec _ => if c.configured then none else some .notConfigured
  | .skey i => if !c.configured then some .notConfigured else if c.nrounds ≤ i then some .subkeyIndex else none
  | .nop => none
  | .cfg _ _ => none
  | .rnd _ _ => none
  | .sbox _ => none
  | .exp _ => none

end Sys2Proof.Machine
end

