-- ==== Sys2Proof/Machine/Control.lean ====
section
/-! DEFINITION. The command cycle: the ports, one rising edge of `clk`, reset, and `NOP` (40_control.md;
70_reset_and_hazards.md). The edge takes the latency and the execution of the accepted word as arguments. -/

namespace Sys2Proof.Machine

/-- `NOP`: `respond(0x0000)` (40_control.md R105). -/
def execNop (s : State) : Answer := .next (s.respond 0)

/-- A host that does nothing at an edge: `rst = 0`, `cmd_valid = 0`, `rsp_ready = 0` (log 4). -/
def PortIn.quiet : PortIn := { rst := false, cmdValid := false, cmdWord := 0, rspReady := false, readsRsp := false }

/-- The input ports at the coming edge; past the script's end the host is quiet (log 4). -/
def State.pins (s : State) : PortIn := s.script.headD PortIn.quiet

/-- `cmd_ready = (PHASE = IDLE)`, and 0 in a cycle where `rst = 1` is sampled
(10_state.md R27, 40_control.md R100, 70_reset_and_hazards.md R230). -/
def State.cmdReady (s : State) : Bool := !s.pins.rst && s.phase == .idle

/-- `rsp_valid = (PHASE = RESP)`, and 0 in a cycle where `rst = 1` is sampled
(10_state.md R27, 40_control.md R100, 70_reset_and_hazards.md R230). -/
def State.rspValid (s : State) : Bool := !s.pins.rst && s.phase == .resp

/-- `rsp_word`: RSP while `rsp_valid = 1`, a free value otherwise (40_control.md R100, I6; log 10). -/
def State.rspWord (s : State) : RspWord := if s.rspValid then s.rsp else Config.freeRspWord s.tick

/-- A command is accepted at this edge: `rst = 0`, `cmd_valid = 1`, `cmd_ready = 1` (40_control.md R100). -/
def State.accepts (s : State) : Bool := s.cmdReady && s.pins.cmdValid

/-- A response is taken at this edge: `rst = 0`, `rsp_valid = 1`, `rsp_ready = 1` (40_control.md R100). -/
def State.takes (s : State) : Bool := s.rspValid && s.pins.rspReady

/-- The host reads `rsp_word` while `rsp_valid = 0` (40_control.md R104, I10). -/
def State.breaksReadDuty (s : State) : Bool := s.pins.readsRsp && !s.rspValid

/-- The host offers another word than the one it offered at the last edge and that was not accepted there
(40_control.md R104, 70_reset_and_hazards.md R237, I8); not in a reset cycle, whose inputs are not looked at (log 12). -/
def State.breaksOfferDuty (s : State) : Bool :=
  !s.pins.rst && s.pins.cmdValid && s.offer.any (· != s.pins.cmdWord)

/-- The offer that stands after this edge: a word offered and not accepted, outside reset (log 12). -/
def State.offerAfter (s : State) : Option Word :=
  if !s.pins.rst && s.pins.cmdValid && !s.cmdReady then some s.pins.cmdWord else none

/-- The host's side and the step counter move past this edge; the engine is left as it is. -/
def State.advance (s : State) : State :=
  { s with script := s.script.tail, offer := s.offerAfter, tick := s.tick + 1 }

/-- What the latency of a word may depend on (70_reset_and_hazards.md R239, R240; log 6). -/
def latKey (w : Word) (c : Cfg) : LatKey where
  op := opcodeOf w
  reserved := hasReservedBit w
  cfgRounds := if opcodeOf w = 1 then w.extractLsb' 20 8 else 0
  nrounds := if c.configured then some c.nrounds else none

/-- Acceptance of the word `w`: `CUR <- w ; PHASE <- BUSY`, with LAT(cmd) edges to go (40_control.md R100, R102). -/
def State.acceptWord (lat : Nat) (w : Word) (s : State) : State :=
  { s with cur := w, phase := .busy, cyclesLeft := lat,
           log := { s.log with accepted := s.log.accepted ++ [w] } }

/-- One BUSY edge that is not the last (40_control.md R102). -/
def State.countDown (s : State) : State := { s with cyclesLeft := s.cyclesLeft - 1 }

/-- The response is taken: `PHASE <- IDLE`, and the host holds RSP (40_control.md R100). -/
def State.takeResponse (s : State) : State :=
  { s with phase := .idle, log := { s.log with taken := s.log.taken ++ [s.rsp] } }

/-- An edge with `rst = 1`: `PHASE <- IDLE ; CONFIGURED <- 0`, no other register changes, a command in flight is
abandoned, and a new run begins (70_reset_and_hazards.md R230, R231; log 9, log 17). -/
def State.applyReset (s : State) : State :=
  { s with phase := .idle, cfg := s.cfg.cleared, log := { accepted := [], taken := [] } }

/-- The execution of the accepted word at the BUSY → RESP edge (40_control.md R101): an error of the decoder is answered
at once, a command goes to its meaning. -/
def State.completeWith (run : Instr → State → Answer) (s : State) : Answer :=
  match decode s.cur with
  | .error e => .next (s.raiseError e)
  | .ok i => run i s

/-- The edge outside reset, by PHASE (40_control.md R100 to R102; a BUSY count of 0, which no run reaches, is log 26). -/
def State.phaseEdge (extra : LatKey → Nat) (run : Instr → State → Answer) (s : State) : Answer :=
  match s.phase with
  | .idle =>
    if s.pins.cmdValid then
      .next (s.advance.acceptWord (extra (latKey s.pins.cmdWord s.cfg) + 1) s.pins.cmdWord)
    else .next s.advance
  | .busy =>
    if s.cyclesLeft ≤ 1 then s.advance.countDown.completeWith run else .next s.advance.countDown
  | .resp => if s.pins.rspReady then .next s.advance.takeResponse else .next s.advance

/-- One rising edge of `clk` (40_control.md R100; 70_reset_and_hazards.md R230, R231): a broken host duty has no meaning,
reset overrides everything else, and outside reset PHASE decides. -/
def State.clockEdge (extra : LatKey → Nat) (run : Instr → State → Answer) (s : State) : Answer :=
  if s.breaksReadDuty then .refused .hostReadInvalidRsp
  else if s.breaksOfferDuty then .refused .hostChangedCmdWord
  else if s.pins.rst then .next s.advance.applyReset
  else s.phaseEdge extra run

end Sys2Proof.Machine
end

