-- ==== Sys2Proof/Machine/KeySchedule.lean ====
section
/-! DEFINITION. The key schedule and the commands `CFG` and `SKEY` (42_key_schedule.md). -/

namespace Sys2Proof.Machine

/-- `SK(0) = KEY`, `SK(i) = rotl_12(SK(i-1), 1)` (42_key_schedule.md R141). -/
def sk (key : Key) : Nat → Key
  | 0 => key
  | i + 1 => rotl12 (sk key i)

/-- Entry `i` of the subkey file: an index `i ≥ NROUNDS` names no entry (10_state.md R30, 42_key_schedule.md R141). -/
def Cfg.subkey (c : Cfg) (i : Nat) : Option Key := if i < c.nrounds.toNat then some (sk c.key i) else none

/-- `CFG KEY, ROUNDS` (42_key_schedule.md R144). -/
def execCfg (rounds : BitVec 8) (key : Key) (s : State) : Answer :=
  .next ((s.writeCfg (configuredWith key rounds)).respond 0)

/-- `SKEY INDEX` (42_key_schedule.md R145): NOT_CONFIGURED, then SUBKEY_INDEX, then the subkey. -/
def execSkey (index : BitVec 8) (s : State) : Answer :=
  s.ifConfigured fun s =>
    match s.cfg.subkey index.toNat with
    | none => .next (s.raiseError .subkeyIndex)
    | some k => .next (s.respond (zext16of12 k))

end Sys2Proof.Machine
end

