-- ==== Sys2Proof/Machine/Substitution.lean ====
section
/-! DEFINITION. The substitution function and the `SBOX` command (41_sbox.md). -/

namespace Sys2Proof.Machine

/-- `SUB(X) = SboxRead(1, X[11:10], X[9:6]) ‖ SboxRead(2, X[5:4], X[3:0])` (41_sbox.md R122). -/
def sub (t : Tables) (x : Key) : Half := t.read1 (fieldP1 x) (fieldQ1 x) ++ t.read2 (fieldP2 x) (fieldQ2 x)

/-- `SBOX X`: `respond(zext_16(SUB(X)))` (41_sbox.md R125). -/
def execSbox (x : Key) (s : State) : Answer := .next (s.respond (zext16of8 (sub s.tables x)))

end Sys2Proof.Machine
end

