-- ==== Sys2Proof/Machine/RoundFunction.lean ====
section
/-! DEFINITION. The expansion, the round and the commands `EXP` and `RND` (43_round_function.md). -/

namespace Sys2Proof.Machine

/-- The permutation table `PT`, 1-indexed into R's characters (43_round_function.md R160). -/
def permutationTable : List Nat := [4, 2, 7, 5, 1, 3, 8, 6, 3, 7, 2, 8]

/-- `EXP(R)`, the twelve source bits of 43_round_function.md R160 from output bit 11 down. -/
def expand (r : Half) : Key :=
  r.extractLsb' 4 1 ++ r.extractLsb' 6 1 ++ r.extractLsb' 1 1 ++ r.extractLsb' 3 1 ++
  r.extractLsb' 7 1 ++ r.extractLsb' 5 1 ++ r.extractLsb' 0 1 ++ r.extractLsb' 2 1 ++
  r.extractLsb' 5 1 ++ r.extractLsb' 1 1 ++ r.extractLsb' 6 1 ++ r.extractLsb' 0 1

/-- `F(R, K) = SUB(EXP(R) ^ K)` (43_round_function.md R162). -/
def roundF (t : Tables) (r : Half) (k : Key) : Half := sub t (expand r ^^^ k)

/-- `ROUND(L, R, K) = (R, L ^ F(R, K))` (43_round_function.md R163). -/
def feistelRound (t : Tables) (lr : Half × Half) (k : Key) : Half × Half := (lr.2, lr.1 ^^^ roundF t lr.2 k)

/-- `(L, R) <- ROUND(L, R, K)` on the working registers (43_round_function.md R163). -/
def State.applyRound (k : Key) (s : State) : State :=
  s.writeHalves (feistelRound s.tables (s.work.l, s.work.r) k).1 (feistelRound s.tables (s.work.l, s.work.r) k).2

/-- `EXP HALF`: `respond(zext_16(EXP(HALF)))` (43_round_function.md R165). -/
def execExp (half : Half) (s : State) : Answer := .next (s.respond (zext16of12 (expand half)))

/-- `RND BLOCK, SUBKEY`: load, one round, `respond(L ‖ R)` (43_round_function.md R166). -/
def execRnd (subkey : Key) (block : Block) (s : State) : Answer :=
  let t := (s.loadBlock block).applyRound subkey
  .next (t.respond (joinHalves t.work.l t.work.r)).releaseHalves

end Sys2Proof.Machine
end

