-- ==== Sys2Proof/Machine/FeistelEngine.lean ====
section
/-! DEFINITION. The block functions and the commands `ENC` and `DEC` (44_feistel_engine.md): the round loops as they run on
the registers L, R and RC, and beside them the block functions of R180 and R181 on values. -/

namespace Sys2Proof.Machine

/-- One pass of the loop body for round `r`: RC takes the value `r`, and `(L, R) <- ROUND(L, R, SK(r))`
(44_feistel_engine.md R180, R181; 10_state.md R22). -/
def State.doRound (r : Nat) (s : State) : State := (s.writeRC r).applyRound (sk s.cfg.key r)

/-- `for r = 0 to n-1` (ascending; empty for n = 0) on the registers (44_feistel_engine.md R180). -/
def State.roundsUp : Nat → State → State
  | 0, s => s
  | n + 1, s => (State.roundsUp n s).doRound n

/-- `for r = n-1 downto 0` (descending; empty for n = 0) on the registers (44_feistel_engine.md R181). -/
def State.roundsDown : Nat → State → State
  | 0, s => s
  | n + 1, s => State.roundsDown n (s.doRound n)

/-- `return R ‖ L`, the arrangement both directions end with (44_feistel_engine.md R180, R181; 90_conflicts.md C2). -/
def State.finalBlock (s : State) : Block := joinHalves s.work.r s.work.l

/-- `ENC BLOCK` (44_feistel_engine.md R182). -/
def execEnc (block : Block) (s : State) : Answer :=
  s.ifConfigured fun s =>
    let t := State.roundsUp s.cfg.nrounds.toNat (s.loadBlock block)
    .next (t.respond t.finalBlock).releaseWork

/-- `DEC BLOCK` (44_feistel_engine.md R183). -/
def execDec (block : Block) (s : State) : Answer :=
  s.ifConfigured fun s =>
    let t := State.roundsDown s.cfg.nrounds.toNat (s.loadBlock block)
    .next (t.respond t.finalBlock).releaseWork

/-- The ascending loop of 44_feistel_engine.md R180 on a pair of halves: `(L_n, R_n)`. -/
def roundsAsc (t : Tables) (key : Key) : Nat → Half × Half → Half × Half
  | 0, lr => lr
  | n + 1, lr => feistelRound t (roundsAsc t key n lr) (sk key n)

/-- The descending loop of 44_feistel_engine.md R181 on a pair of halves. -/
def roundsDesc (t : Tables) (key : Key) : Nat → Half × Half → Half × Half
  | 0, lr => lr
  | n + 1, lr => roundsDesc t key n (feistelRound t lr (sk key n))

/-- The rounds under a list of subkeys, first subkey first (44_feistel_engine.md R189). -/
def roundsWith (t : Tables) : List Key → Half × Half → Half × Half
  | [], lr => lr
  | k :: ks, lr => roundsWith t ks (feistelRound t lr k)

/-- `ENCRYPT(B)` (44_feistel_engine.md R180). -/
def encrypt (t : Tables) (key : Key) (n : Nat) (b : Block) : Block :=
  joinHalves (roundsAsc t key n (blockL b, blockR b)).2 (roundsAsc t key n (blockL b, blockR b)).1

/-- `DECRYPT(C)` (44_feistel_engine.md R181). -/
def decrypt (t : Tables) (key : Key) (n : Nat) (c : Block) : Block :=
  joinHalves (roundsDesc t key n (blockL c, blockR c)).2 (roundsDesc t key n (blockL c, blockR c)).1

/-- The block function under any list of subkeys (44_feistel_engine.md R189). -/
def encryptWith (t : Tables) (ks : List Key) (b : Block) : Block :=
  joinHalves (roundsWith t ks (blockL b, blockR b)).2 (roundsWith t ks (blockL b, blockR b)).1

end Sys2Proof.Machine
end

