-- ==== Sys2Proof/Machine/Dispatch.lean ====
section
/-! DEFINITION. One meaning per command (40_control.md R101, `perform`). -/

namespace Sys2Proof.Machine

def exec (i : Instr) (s : State) : Host.Outcome State Fault Refusal :=
  match i with
  | .nop => Sys2Proof.Machine.execNop s
  | .cfg rounds key => Sys2Proof.Machine.execCfg rounds key s
  | .enc block => Sys2Proof.Machine.execEnc block s
  | .dec block => Sys2Proof.Machine.execDec block s
  | .rnd subkey block => Sys2Proof.Machine.execRnd subkey block s
  | .sbox x => Sys2Proof.Machine.execSbox x s
  | .exp half => Sys2Proof.Machine.execExp half s
  | .skey index => Sys2Proof.Machine.execSkey index s

end Sys2Proof.Machine
end

