-- ==== Sys2Proof/Machine/Step.lean ====
section
/-! DEFINITION. The step: one rising edge of `clk` (40_control.md R100; log 3). -/

namespace Sys2Proof.Machine

/-- One rising edge under any latency parameter (`LAT = extra + 1`; 00_scope.md R6, R102). -/
def stepWith (extra : LatKey → Nat) (s : State) : Answer := s.clockEdge extra exec

/-- One rising edge of the machine, whose latency is the body-less constant `Config.extraLat`. -/
def step : State → Host.Outcome State Fault Refusal := stepWith Config.extraLat

/-- `k` rising edges, stopping at the first refusal. -/
def runWith (extra : LatKey → Nat) : Nat → State → Answer
  | 0, s => .next s
  | k + 1, s =>
    match stepWith extra s with
    | .next t => runWith extra k t
    | .fault r => .fault r
    | .refused r => .refused r

/-- The table's word as the accepted command with one BUSY edge left, at which a quiet host leaves it to complete: the
very next step executes it (log 13). -/
def State.withFetchWord (s : State) (nbits w : Nat) : State :=
  { s with phase := .busy, cyclesLeft := 1, cur := BitVec.ofNat 32 (w % 2 ^ nbits), script := PortIn.quiet :: s.script }

end Sys2Proof.Machine
end

