-- ==== Sys2Proof/Machine/Assembler.lean ====
section
/-! DEFINITION. The assembly syntax of 30_encoding.md R86 and the pseudo-instruction of R87: a line of text to at most one
command word. -/

namespace Sys2Proof.Machine

/-- Why a line does not assemble. -/
inductive AsmError where
  /-- The first word of the line is no mnemonic and no directive. -/
  | unknownMnemonic
  /-- The mnemonic does not take this number of operands. -/
  | operandCount
  /-- An operand is no decimal, `0x` or `0b` number. -/
  | badNumber
  /-- An operand is too wide for its field (R86: never truncated). -/
  | operandTooWide
deriving DecidableEq, Repr

/-- A value below 16 of a digit character; hexadecimal letters in either case (log 18). -/
def digitValue (c : Char) : Option Nat :=
  if '0' ≤ c ∧ c ≤ '9' then some (c.toNat - '0'.toNat)
  else if 'a' ≤ c ∧ c ≤ 'f' then some (c.toNat - 'a'.toNat + 10)
  else if 'A' ≤ c ∧ c ≤ 'F' then some (c.toNat - 'A'.toNat + 10)
  else none

/-- Digits of one base, most significant first; `none` at a character that is no digit of the base. -/
def digitsFrom (base : Nat) : Nat → List Char → Option Nat
  | n, [] => some n
  | n, c :: cs =>
    match digitValue c with
    | some d => if d < base then digitsFrom base (base * n + d) cs else none
    | none => none

/-- Digits of one base, at least one. -/
def parseDigits (base : Nat) : List Char → Option Nat
  | [] => none
  | c :: cs => digitsFrom base 0 (c :: cs)

/-- A number: hexadecimal with `0x`, binary with `0b` (most significant bit first), else decimal (R86). -/
def parseNumber : List Char → Option Nat
  | '0' :: 'x' :: cs => parseDigits 16 cs
  | '0' :: 'b' :: cs => parseDigits 2 cs
  | cs => parseDigits 10 cs

/-- A blank of a line: a space or a tab (log 18). -/
def isBlank (c : Char) : Bool := c == ' ' || c == '\t'

/-- A text without its leading and trailing blanks. -/
def trimBlanks (cs : List Char) : List Char := ((cs.dropWhile isBlank).reverse.dropWhile isBlank).reverse

/-- A line without its comment: `;` starts one (R86). -/
def stripComment (cs : List Char) : List Char := cs.takeWhile (· != ';')

/-- The text between commas, each piece without its blanks around it. -/
def splitCommas : List Char → List (List Char)
  | [] => [[]]
  | c :: cs =>
    match splitCommas cs with
    | [] => [[c]]
    | p :: ps => if c = ',' then [] :: p :: ps else (c :: p) :: ps

/-- The operands of a line, as numbers; no operand where nothing stands after the mnemonic. -/
def parseOperands (cs : List Char) : Option (List Nat) :=
  if trimBlanks cs = [] then some []
  else ((splitCommas cs).map trimBlanks).mapM parseNumber

/-- A mnemonic with its operands as a source command, in the operand order of R86. -/
def sourceOf (mnemonic : List Char) (operands : List Nat) : Except AsmError Source :=
  match mnemonic with
  | ['n', 'o', 'p'] => match operands with | [] => .ok .nop | _ => .error .operandCount
  | ['c', 'f', 'g'] => match operands with | [k] => .ok (.cfg k none) | [k, n] => .ok (.cfg k (some n)) | _ => .error .operandCount
  | ['e', 'n', 'c'] => match operands with | [b] => .ok (.enc b) | _ => .error .operandCount
  | ['d', 'e', 'c'] => match operands with | [b] => .ok (.dec b) | _ => .error .operandCount
  | ['r', 'n', 'd'] => match operands with | [b, k] => .ok (.rnd b k) | _ => .error .operandCount
  | ['s', 'b', 'o', 'x'] => match operands with | [x] => .ok (.sbox x) | _ => .error .operandCount
  | ['e', 'x', 'p'] => match operands with | [h] => .ok (.exp h) | _ => .error .operandCount
  | ['s', 'k', 'e', 'y'] => match operands with | [i] => .ok (.skey i) | _ => .error .operandCount
  | ['.', 'w', 'o', 'r', 'd'] => match operands with | [w] => .ok (.word w) | _ => .error .operandCount
  | _ => .error .unknownMnemonic

/-- The word of a source command whose operands fit: `cfg KEY` takes 6 rounds (R87), `.word` is verbatim (R86). -/
def sourceWord : Source → Word
  | .nop => encode .nop
  | .cfg key rounds => encode (.cfg (BitVec.ofNat 8 (rounds.getD 6)) (BitVec.ofNat 12 key))
  | .enc block => encode (.enc (BitVec.ofNat 16 block))
  | .dec block => encode (.dec (BitVec.ofNat 16 block))
  | .rnd block subkey => encode (.rnd (BitVec.ofNat 12 subkey) (BitVec.ofNat 16 block))
  | .sbox x => encode (.sbox (BitVec.ofNat 12 x))
  | .exp half => encode (.exp (BitVec.ofNat 8 half))
  | .skey index => encode (.skey (BitVec.ofNat 8 index))
  | .word w => BitVec.ofNat 32 w

/-- A source command to its word: an operand too wide for its field is an error, never truncated (R86). -/
def assembleSource (c : Source) : Except AsmError Word :=
  if c.wellFormed then .ok (sourceWord c) else .error .operandTooWide

/-- A command as a source command with its operands written out: what a listing shows (R86). -/
def sourceOfInstr : Instr → Source
  | .nop => .nop
  | .cfg rounds key => .cfg key.toNat (some rounds.toNat)
  | .enc block => .enc block.toNat
  | .dec block => .dec block.toNat
  | .rnd subkey block => .rnd block.toNat subkey.toNat
  | .sbox x => .sbox x.toNat
  | .exp half => .exp half.toNat
  | .skey index => .skey index.toNat

/-- The one pseudo-instruction, expanded: `cfg KEY` is `cfg KEY, 6` (R87). -/
def expandPseudo : Source → Source
  | .nop => .nop
  | .cfg key rounds => .cfg key (some (rounds.getD 6))
  | .enc block => .enc block
  | .dec block => .dec block
  | .rnd block subkey => .rnd block subkey
  | .sbox x => .sbox x
  | .exp half => .exp half
  | .skey index => .skey index
  | .word w => .word w

/-- One line of assembly (R86): nothing for a line with no command, else the command's word. -/
def assembleLine (line : List Char) : Except AsmError (Option Word) :=
  match trimBlanks (stripComment line) with
  | [] => .ok none
  | c :: cs =>
    match parseOperands ((c :: cs).dropWhile (!isBlank ·)) with
    | none => .error .badNumber
    | some operands =>
      match sourceOf ((c :: cs).takeWhile (!isBlank ·)) operands with
      | .error e => .error e
      | .ok src => (assembleSource src).map some

/-- A program's lines to its command words, in order; the first error ends it (R86). -/
def assembleLines : List (List Char) → Except AsmError (List Word)
  | [] => .ok []
  | l :: ls =>
    match assembleLine l with
    | .error e => .error e
    | .ok w => (assembleLines ls).map (w.toList ++ ·)

end Sys2Proof.Machine
end

