-- ==== Sys2Proof/Machine/BitString.lean ====
section
/-! DEFINITION. The source's own notation, bit-strings with the first character most significant, and its operations on
them (00_scope.md R8 to R10, R13): what the vector-level definitions are held against. -/

namespace Sys2Proof.Machine

/-- The bit-string of a vector: character `i` is bit `w-1-i` (00_scope.md R8). -/
def chars {w : Nat} (v : BitVec w) : List Bool := (List.range w).map fun i => v.getLsbD (w - 1 - i)

/-- The source's half-open slice `bits[a:b]` (00_scope.md R9). -/
def slice (a b : Nat) (s : List Bool) : List Bool := (s.drop a).take (b - a)

/-- Base-2 parsing, first character most significant (00_scope.md R8, R13). -/
def parseBase2 (s : List Bool) : Nat := s.foldl (fun n c => 2 * n + c.toNat) 0

/-- "moves the first character to the end" (42_key_schedule.md R140). -/
def firstToEnd : List Bool → List Bool
  | [] => []
  | c :: cs => cs ++ [c]

/-- "for each position i in the table, the character at that position of R", 1-indexed (43_round_function.md R160). -/
def selectChars (positions : List Nat) (s : List Bool) : List Bool := positions.map fun p => s.getD (p - 1) false

end Sys2Proof.Machine
end

