-- ==== Sys2Proof/Machine/Platform.lean ====
section
/-! DEFINITION. Several engines on one platform (60_exceptions.md R210): each has its own state, they share nothing
writable, and the substitution tables are one constant copy. Which engine's edge comes next is an argument (log 15). -/

namespace Sys2Proof.Machine

/-- A platform: the one copy of the tables that all its engines read, and each engine's own state (60_exceptions.md R210).
An engine is read through `Platform.engine` only. -/
structure Platform where
  tables : Tables
  engines : List State
deriving DecidableEq, Repr

/-- Engine `i`: its own state, with the platform's tables (60_exceptions.md R210; log 15). -/
def Platform.engine (p : Platform) (i : Nat) : Option State :=
  p.engines[i]?.map fun s => { s with tables := p.tables }

/-- Engine `i`'s own state becomes `t`. -/
def Platform.setEngine (p : Platform) (i : Nat) (t : State) : Platform := { p with engines := p.engines.set i t }

/-- One edge of engine `i`; `none` where there is no such engine or its step has no meaning. -/
def Platform.stepAt (p : Platform) (i : Nat) : Option Platform :=
  match p.engine i with
  | none => none
  | some s =>
    match step s with
    | .next t => some (p.setEngine i t)
    | .fault _ => none
    | .refused _ => none

end Sys2Proof.Machine
end

