-- ==== Sys2Proof/Machine/Transaction.lean ====
section
/-! DEFINITION. The transaction level of 40_control.md R101 and R106: one command word as a function of the tables, the
configuration and the word, and a run as its fold. It is written on values, beside the register-level meanings. -/

namespace Sys2Proof.Machine

/-- `perform(cfg, cmd)` after `precheck`: the configuration left and DATA (40_control.md R101, R105; 41_sbox.md R125;
42_key_schedule.md R144, R145; 43_round_function.md R165, R166; 44_feistel_engine.md R182, R183). -/
def perform (t : Tables) (c : Cfg) : Instr → Cfg × BitVec 16
  | .nop => (c, 0)
  | .cfg rounds key => (configuredWith key rounds, 0)
  | .enc b => (c, encrypt t c.key c.nrounds.toNat b)
  | .dec b => (c, decrypt t c.key c.nrounds.toNat b)
  | .rnd k b => (c, joinHalves (feistelRound t (blockL b, blockR b) k).1 (feistelRound t (blockL b, blockR b) k).2)
  | .sbox x => (c, zext16of8 (sub t x))
  | .exp h => (c, zext16of12 (expand h))
  | .skey i => (c, zext16of12 (rotl12By c.key i.toNat))

/-- A decoded command: `precheck`, then `perform` (40_control.md R101). -/
def performChecked (t : Tables) (c : Cfg) (i : Instr) : Cfg × RspWord :=
  match precheck c i with
  | some e => (c, errorWord e)
  | none => ((perform t c i).1, rspOf 0 (perform t c i).2)

/-- `Exec(cfg, w)` (40_control.md R101). -/
def transact (t : Tables) (c : Cfg) (w : Word) : Cfg × RspWord :=
  match decode w with
  | .error e => (c, errorWord e)
  | .ok i => performChecked t c i

/-- The observation of a run: the final configuration and the responses in order, the fold of `Exec` over its words
(40_control.md R106). -/
def transactAll (t : Tables) : Cfg → List Word → Cfg × List RspWord
  | c, [] => (c, [])
  | c, w :: ws =>
    ((transactAll t (transact t c w).1 ws).1, (transact t c w).2 :: (transactAll t (transact t c w).1 ws).2)

end Sys2Proof.Machine
end

