-- ==== Sys2Proof/Safety.lean ====
section
/-! DEFINITION. What claims about the machine are stated in: the structural invariant, the run since the last reset
against the fold of `Exec`, and what of a state is architectural. -/

namespace Sys2Proof.Machine

/-- A response an engine can give: an error code of 60_exceptions.md R202, and DATA = 0 with every error (30_encoding.md R81). -/
def legalResponse (w : RspWord) : Bool :=
  decide ((w.extractLsb' 16 4).toNat ≤ 4) && (w.extractLsb' 16 4 == 0 || w.extractLsb' 0 16 == 0)

/-- The responses due for the command in flight: one in BUSY and in RESP, none in IDLE (20_memory.md R59). -/
def Phase.due : Phase → Nat
  | .idle => 0
  | .busy => 1
  | .resp => 1

/-- The structural invariant: a BUSY engine has an edge to go (LAT ≥ 1), RC holds a legal value (10_state.md R29), a
response held or taken is a legal one, and exactly one response per accepted command has been taken or is still due
(20_memory.md R59). -/
structure State.Inv (s : State) : Prop where
  busy_counts : s.phase = .busy → 1 ≤ s.cyclesLeft
  rc_legal : s.work.rc.toNat ≤ 254
  rsp_legal : s.phase = .resp → legalResponse s.rsp = true
  taken_legal : ∀ w ∈ s.log.taken, legalResponse w = true
  one_each : s.log.accepted.length = s.log.taken.length + s.phase.due

/-- The accepted words whose execution is over: all of them, less the one in flight while BUSY (40_control.md R101). -/
def State.executed (s : State) : List Word :=
  if s.phase = .busy then s.log.accepted.dropLast else s.log.accepted

/-- The responses produced: those taken and the one held in RESP (40_control.md R102). -/
def State.produced (s : State) : List RspWord :=
  if s.phase = .resp then s.log.taken ++ [s.rsp] else s.log.taken

/-- The state is on a run that began in configuration `c` (just after reset, or stated): configuration and responses are
the fold of `Exec` over the executed words, and the word in flight is the last one accepted (40_control.md R106). -/
structure State.OnRunFrom (c : Cfg) (s : State) : Prop where
  folds : transactAll s.tables c s.executed = (s.cfg, s.produced)
  in_flight : s.phase = .busy → s.log.accepted.getLast? = some s.cur

/-- The run has ended: all responses are taken and PHASE = IDLE (40_control.md R106; in IDLE none is due). -/
def State.ended (s : State) : Prop := s.phase = .idle

/-- PHASE with what of CUR and RSP is architectural in it (10_state.md R33). -/
inductive PhaseView where
  | idle
  | busy (cmd : Word) (cyclesLeft : Nat)
  | resp (rsp : RspWord)
deriving DecidableEq, Repr

/-- What a step may depend on (10_state.md R32, R33): KEY and NROUNDS only where CONFIGURED = 1 (R25, R26), CUR and RSP
only in their phase (R28), no working register, no step counter; and the host's side. -/
structure ArchView where
  config : Option (Key × BitVec 8)
  phase : PhaseView
  tables : Tables
  script : List PortIn
  offer : Option Word
  log : RunLog
deriving DecidableEq, Repr

/-- PHASE as its view. -/
def State.phaseView (s : State) : PhaseView :=
  match s.phase with
  | .idle => .idle
  | .busy => .busy s.cur s.cyclesLeft
  | .resp => .resp s.rsp

/-- The configuration that a step may depend on: nothing of KEY and NROUNDS while CONFIGURED = 0 (10_state.md R25, R26). -/
def Cfg.visible (c : Cfg) : Option (Key × BitVec 8) := if c.configured then some (c.key, c.nrounds) else none

/-- The architectural view of a state. -/
def State.arch (s : State) : ArchView where
  config := s.cfg.visible
  phase := s.phaseView
  tables := s.tables
  script := s.script
  offer := s.offer
  log := s.log

/-- An answer seen through the architectural view. -/
def answerView : Answer → Host.Outcome ArchView Fault Refusal
  | .next t => .next t.arch
  | .fault r => .fault r
  | .refused r => .refused r

/-- The engine's own part of the state: all but the host's side and the step counter. -/
def State.sameEngine (s t : State) : Prop :=
  t.cfg = s.cfg ∧ t.phase = s.phase ∧ t.cyclesLeft = s.cyclesLeft ∧ t.cur = s.cur ∧ t.rsp = s.rsp ∧
    t.work = s.work ∧ t.tables = s.tables

/-- The state the accepted word executes in: the host's side and the step counter past this edge, one edge fewer to go. -/
def State.atEdge (s : State) : State := s.advance.countDown

/-- The state is at the edge at which the accepted word executes: BUSY with at most one edge to go, no reset, no duty
broken (40_control.md R101, R102). -/
def State.completing (s : State) : Prop :=
  s.phase = .busy ∧ s.cyclesLeft ≤ 1 ∧ s.pins.rst = false ∧ s.breaksReadDuty = false ∧ s.breaksOfferDuty = false

end Sys2Proof.Machine
end

