-- ==== Sys2Proof/Certificates/Slice0/Obligations.lean ====
section
/-! DEFINITION. The statements about the model, each from the numbered rules of spec/. -/

open Sys2Proof Sys2Proof.Machine

/-! ## Encoding -/

/-- Words written out from 30_encoding.md R72 decode to their commands (95_test_vectors.md sections 2 and 3). -/
def Obligations.SampleWordsDecode : Prop :=
  decode 0x00000000 = .ok .nop ∧ decode 0x106000A5 = .ok (.cfg 6 0x0A5) ∧
  decode 0x20004142 = .ok (.enc 0x4142) ∧ decode 0x3000C77C = .ok (.dec 0xC77C) ∧
  decode 0x40A54142 = .ok (.rnd 0x0A5 0x4142) ∧ decode 0x500006A3 = .ok (.sbox 0x6A3) ∧
  decode 0x60000042 = .ok (.exp 0x42) ∧ decode 0x70000005 = .ok (.skey 5)

/-- Decoding the word of a command gives the command back, for every command and every operand value
(30_encoding.md R72, R84). -/
def Obligations.DecodeEncodeRoundTrip : Prop := ∀ i : Instr, decode (encode i) = .ok i

/-- A word that decodes to a command is that command's word: each command has one word (30_encoding.md R72, R83). -/
def Obligations.DecodedWordIsItsEncoding : Prop := ∀ (w : Word) (i : Instr), decode w = .ok i → encode i = w

/-- 30_encoding.md R73: a word is the command when `(w & MASK) = MATCH`, MASK covers the opcode and every reserved bit,
no two rows match one word, and the eight rows are the table's. -/
def Obligations.MatchAndMaskDecideTheCommand : Prop :=
  (∀ (w : Word) (i : Instr), decode w = .ok i → w &&& i.maskWord = i.matchWord) ∧
  (∀ (w : Word) (j : Instr), w &&& j.maskWord = j.matchWord →
    ∃ i, decode w = .ok i ∧ i.matchWord = j.matchWord ∧ i.maskWord = j.maskWord) ∧
  (∀ i : Instr, i.maskWord = 0xF0000000#32 ||| rsvdMask (opcodeOf i.matchWord)) ∧
  (∀ (w : Word) (i j : Instr), w &&& i.maskWord = i.matchWord → w &&& j.maskWord = j.matchWord →
    i.matchWord = j.matchWord) ∧
  (Instr.nop.matchWord = 0x00000000 ∧ Instr.nop.maskWord = 0xFFFFFFFF ∧ rsvdMask 0 = 0x0FFFFFFF) ∧
  (∀ n k, (Instr.cfg n k).matchWord = 0x10000000 ∧ (Instr.cfg n k).maskWord = 0xF00FF000 ∧ rsvdMask 1 = 0x000FF000) ∧
  (∀ b, (Instr.enc b).matchWord = 0x20000000 ∧ (Instr.enc b).maskWord = 0xFFFF0000 ∧ rsvdMask 2 = 0x0FFF0000) ∧
  (∀ b, (Instr.dec b).matchWord = 0x30000000 ∧ (Instr.dec b).maskWord = 0xFFFF0000 ∧ rsvdMask 3 = 0x0FFF0000) ∧
  (∀ k b, (Instr.rnd k b).matchWord = 0x40000000 ∧ (Instr.rnd k b).maskWord = 0xF0000000 ∧ rsvdMask 4 = 0x00000000) ∧
  (∀ x, (Instr.sbox x).matchWord = 0x50000000 ∧ (Instr.sbox x).maskWord = 0xFFFFF000 ∧ rsvdMask 5 = 0x0FFFF000) ∧
  (∀ h, (Instr.exp h).matchWord = 0x60000000 ∧ (Instr.exp h).maskWord = 0xFFFFFF00 ∧ rsvdMask 6 = 0x0FFFFF00) ∧
  (∀ i, (Instr.skey i).matchWord = 0x70000000 ∧ (Instr.skey i).maskWord = 0xFFFFFF00 ∧ rsvdMask 7 = 0x0FFFFF00)

/-- 30_encoding.md R83: a word is illegal, reserved, or the command it matches, by the word alone; an illegal or reserved
word completes with its error and changes no other state. -/
def Obligations.EveryWordIsInOneClass : Prop :=
  (∀ w : Word, decode w = .error .illegalOpcode ↔ 8 ≤ w.toNat / 2 ^ 28) ∧
  (∀ w : Word, decode w = .error .reservedField ↔ w.toNat / 2 ^ 28 < 8 ∧ w &&& rsvdMask (opcodeOf w) ≠ 0) ∧
  (∀ w : Word, w.toNat / 2 ^ 28 < 8 → w &&& rsvdMask (opcodeOf w) = 0 →
    ∃ i, decode w = .ok i ∧ w &&& i.maskWord = i.matchWord) ∧
  (∀ (extra : LatKey → Nat) (s : State), s.completing → decode s.cur = .error .illegalOpcode →
    stepWith extra s = .next { s.atEdge with rsp := 0x10000#20, phase := .resp }) ∧
  (∀ (extra : LatKey → Nat) (s : State), s.completing → decode s.cur = .error .reservedField →
    stepWith extra s = .next { s.atEdge with rsp := 0x20000#20, phase := .resp })

/-- At the edge at which the accepted word executes, a step is the decoded command's meaning, in the state past the edge:
the host's script one entry further, its offer noted, one step counted, one BUSY edge fewer (40_control.md R101). -/
def Obligations.StepRunsDecodedCommand : Prop :=
  ∀ (s : State) (i : Instr), s.completing → decode s.cur = .ok i →
    step s = exec i { s with cyclesLeft := s.cyclesLeft - 1, script := s.script.tail, offer := s.offerAfter, tick := s.tick + 1 }

/-- The very next step after `withFetchWord` runs the stored word: the model's stand-in for a host that sent it (log 13). -/
def Obligations.FetchWordRunsNext : Prop :=
  ∀ (s : State) (w : Word) (i : Instr), decode w = .ok i →
    ∃ u : State, step (s.withFetchWord 32 w.toNat) = exec i u ∧ u.cfg = s.cfg ∧ u.tables = s.tables ∧
      u.script = s.script ∧ u.log = s.log ∧ u.work = s.work

/-! ## The commands -/

/-- `NOP` (40_control.md R105): DATA is 0, nothing else changes; any other word with opcode 0 is RESERVED_FIELD. -/
def Obligations.NopAnswersZero : Prop :=
  (∀ s : State, exec .nop s = .next { s with rsp := 0x00000#20, phase := .resp }) ∧
  (∀ (extra : LatKey → Nat) (s : State), s.completing → opcodeOf s.cur = 0x0#4 →
    stepWith extra s =
      if s.cur = 0 then exec .nop s.atEdge else .next { s.atEdge with rsp := 0x20000#20, phase := .resp })

/-- `CFG` (42_key_schedule.md R144): KEY, NROUNDS and CONFIGURED are written, for every key and round count; with a
reserved bit set nothing is written; sending it twice leaves what sending it once leaves. -/
def Obligations.CfgWritesConfiguration : Prop :=
  (∀ (rounds : BitVec 8) (key : Key) (s : State), exec (.cfg rounds key) s =
    .next { s with cfg := { configured := true, key := key, nrounds := rounds }, rsp := 0x00000#20, phase := .resp }) ∧
  (∀ (extra : LatKey → Nat) (s : State), s.completing → opcodeOf s.cur = 0x1#4 →
    stepWith extra s =
      if s.cur &&& 0x000FF000#32 = 0 then exec (.cfg (s.cur.extractLsb' 20 8) (s.cur.extractLsb' 0 12)) s.atEdge
      else .next { s.atEdge with rsp := 0x20000#20, phase := .resp }) ∧
  (∀ (rounds : BitVec 8) (key : Key) (s t : State), exec (.cfg rounds key) s = .next t → exec (.cfg rounds key) t = .next t)

/-- `ENC` (44_feistel_engine.md R182): where CONFIGURED = 1 the response is ENCRYPT(BLOCK) and only RSP, PHASE and the
working registers change (RC to a legal value); where it is 0 the response is NOT_CONFIGURED and only RSP and PHASE change;
a word of this opcode with a reserved bit set is RESERVED_FIELD. -/
def Obligations.EncAnswersCiphertext : Prop :=
  (∀ (b : Block) (s : State), s.cfg.configured = true → ∃ w : Work, w.rc.toNat ≤ 254 ∧ exec (.enc b) s =
    .next { s with rsp := 0#4 ++ encrypt s.tables s.cfg.key s.cfg.nrounds.toNat b, phase := .resp, work := w }) ∧
  (∀ (b : Block) (s : State), s.cfg.configured = false →
    exec (.enc b) s = .next { s with rsp := 0x30000#20, phase := .resp }) ∧
  (∀ (extra : LatKey → Nat) (s : State), s.completing → opcodeOf s.cur = 0x2#4 →
    stepWith extra s =
      if s.cur &&& 0x0FFF0000#32 = 0 then exec (.enc (s.cur.extractLsb' 0 16)) s.atEdge
      else .next { s.atEdge with rsp := 0x20000#20, phase := .resp })

/-- `DEC` (44_feistel_engine.md R183): as `ENC`, with DECRYPT. -/
def Obligations.DecAnswersPlaintext : Prop :=
  (∀ (b : Block) (s : State), s.cfg.configured = true → ∃ w : Work, w.rc.toNat ≤ 254 ∧ exec (.dec b) s =
    .next { s with rsp := 0#4 ++ decrypt s.tables s.cfg.key s.cfg.nrounds.toNat b, phase := .resp, work := w }) ∧
  (∀ (b : Block) (s : State), s.cfg.configured = false →
    exec (.dec b) s = .next { s with rsp := 0x30000#20, phase := .resp }) ∧
  (∀ (extra : LatKey → Nat) (s : State), s.completing → opcodeOf s.cur = 0x3#4 →
    stepWith extra s =
      if s.cur &&& 0x0FFF0000#32 = 0 then exec (.dec (s.cur.extractLsb' 0 16)) s.atEdge
      else .next { s.atEdge with rsp := 0x20000#20, phase := .resp })

/-- `RND` (43_round_function.md R166): the response is `BLOCK[7:0] ‖ (BLOCK[15:8] ^ F(BLOCK[7:0], SUBKEY))` in any
configuration, where `F(R, K) = SUB(EXP(R) ^ K)` (R162) is the two table cells that the fields of `EXP(R) ^ K` name
(41_sbox.md R122); only RSP, PHASE, L and R change; every word with opcode 4 is a valid `RND`. -/
def Obligations.RndAnswersOneRound : Prop :=
  (∀ (k : Key) (b : Block) (s : State), ∃ l r : Half, exec (.rnd k b) s =
    .next { s with
      rsp := 0#4 ++ (b.extractLsb' 0 8 ++ (b.extractLsb' 8 8 ^^^ roundF s.tables (b.extractLsb' 0 8) k)),
      phase := .resp, work := { l := l, r := r, rc := s.work.rc } }) ∧
  (∀ (t : Tables) (r : Half) (k : Key), roundF t r k =
    t.read1 ((expand r ^^^ k).extractLsb' 10 2) ((expand r ^^^ k).extractLsb' 6 4) ++
      t.read2 ((expand r ^^^ k).extractLsb' 4 2) ((expand r ^^^ k).extractLsb' 0 4)) ∧
  (∀ (extra : LatKey → Nat) (s : State), s.completing → opcodeOf s.cur = 0x4#4 →
    stepWith extra s = exec (.rnd (s.cur.extractLsb' 16 12) (s.cur.extractLsb' 0 16)) s.atEdge)

/-- `SBOX` (41_sbox.md R125): the response is the two cells of `SUB(X)`, zero-extended, in any configuration; only RSP and
PHASE change; a word of this opcode with a reserved bit set is RESERVED_FIELD. The cells read are the tables' own: reading
table 1 or 2 at `(p, q)` gives the cell `SBOX1(p, q)` or `SBOX2(p, q)` (R120), and every pair of tables is given by its cells. -/
def Obligations.SboxAnswersSubstitution : Prop :=
  (∀ (x : Key) (s : State), exec (.sbox x) s =
    .next { s with
      rsp := 0#12 ++ (s.tables.read1 (x.extractLsb' 10 2) (x.extractLsb' 6 4) ++
        s.tables.read2 (x.extractLsb' 4 2) (x.extractLsb' 0 4)),
      phase := .resp }) ∧
  (∀ (extra : LatKey → Nat) (s : State), s.completing → opcodeOf s.cur = 0x5#4 →
    stepWith extra s =
      if s.cur &&& 0x0FFFF000#32 = 0 then exec (.sbox (s.cur.extractLsb' 0 12)) s.atEdge
      else .next { s.atEdge with rsp := 0x20000#20, phase := .resp }) ∧
  (∀ (s1 s2 : Fin 4 → Fin 16 → Nibble) (p : BitVec 2) (q : BitVec 4),
    (Tables.ofCells s1 s2).read1 p q = s1 p.toFin q.toFin ∧ (Tables.ofCells s1 s2).read2 p q = s2 p.toFin q.toFin) ∧
  (∀ t : Tables, ∃ s1 s2, t = Tables.ofCells s1 s2)

/-- `EXP` (43_round_function.md R165): the response is `EXP(HALF)`, zero-extended, in any configuration; only RSP and PHASE
change; a word of this opcode with a reserved bit set is RESERVED_FIELD; and the rule's four corner values hold. -/
def Obligations.ExpAnswersExpansion : Prop :=
  (∀ (h : Half) (s : State), exec (.exp h) s = .next { s with rsp := 0#8 ++ expand h, phase := .resp }) ∧
  (∀ (extra : LatKey → Nat) (s : State), s.completing → opcodeOf s.cur = 0x6#4 →
    stepWith extra s =
      if s.cur &&& 0x0FFFFF00#32 = 0 then exec (.exp (s.cur.extractLsb' 0 8)) s.atEdge
      else .next { s.atEdge with rsp := 0x20000#20, phase := .resp }) ∧
  expand 0x00 = 0x000 ∧ expand 0xFF = 0xFFF ∧ expand 0x01 = 0x021 ∧ expand 0x10 = 0x800

/-- `SKEY` (42_key_schedule.md R145): NOT_CONFIGURED where CONFIGURED = 0, else SUBKEY_INDEX where INDEX ≥ NROUNDS, else
KEY rotated left by INDEX places, zero-extended; only RSP and PHASE change; a word of this opcode with a reserved bit set
is RESERVED_FIELD. -/
def Obligations.SkeyAnswersSubkey : Prop :=
  (∀ (i : BitVec 8) (s : State), s.cfg.configured = false →
    exec (.skey i) s = .next { s with rsp := 0x30000#20, phase := .resp }) ∧
  (∀ (i : BitVec 8) (s : State), s.cfg.configured = true → s.cfg.nrounds.toNat ≤ i.toNat →
    exec (.skey i) s = .next { s with rsp := 0x40000#20, phase := .resp }) ∧
  (∀ (i : BitVec 8) (s : State), s.cfg.configured = true → i.toNat < s.cfg.nrounds.toNat →
    exec (.skey i) s = .next { s with rsp := 0#8 ++ s.cfg.key.rotateLeft i.toNat, phase := .resp }) ∧
  (∀ (extra : LatKey → Nat) (s : State), s.completing → opcodeOf s.cur = 0x7#4 →
    stepWith extra s =
      if s.cur &&& 0x0FFFFF00#32 = 0 then exec (.skey (s.cur.extractLsb' 0 8)) s.atEdge
      else .next { s.atEdge with rsp := 0x20000#20, phase := .resp })

/-! ## Expansion, substitution, key schedule, round -/

/-- 43_round_function.md R160: output bit `11-i` is `R[8-PT[i]]`, and as strings character `i` of the output is character
`PT[i]` of R, for the table `PT = [4,2,7,5,1,3,8,6,3,7,2,8]`. -/
def Obligations.ExpansionFollowsTheTable : Prop :=
  (∀ (r : Half) (i : Nat), i < 12 →
    (expand r).getLsbD (11 - i) = r.getLsbD (8 - [4, 2, 7, 5, 1, 3, 8, 6, 3, 7, 2, 8].getD i 0)) ∧
  (∀ r : Half, chars (expand r) = selectChars [4, 2, 7, 5, 1, 3, 8, 6, 3, 7, 2, 8] (chars r))

/-- 41_sbox.md R121: the four fields are the source's slices `bits[0:2]`, `bits[2:6]`, `bits[6:8]`, `bits[8:12]` of the
12-character string, for every value of X, and together they are all of X. -/
def Obligations.SubstitutionFieldsAreTheSlices : Prop :=
  ∀ x : Key,
    chars (fieldP1 x) = slice 0 2 (chars x) ∧ chars (fieldQ1 x) = slice 2 6 (chars x) ∧
    chars (fieldP2 x) = slice 6 8 (chars x) ∧ chars (fieldQ2 x) = slice 8 12 (chars x) ∧
    fieldP1 x ++ fieldQ1 x ++ fieldP2 x ++ fieldQ2 x = x

/-- 00_scope.md R8, R10, R13: concatenation of vectors is concatenation of strings, a string parses in base 2 to the
vector's number, and the source's integer XOR is the bitwise XOR. -/
def Obligations.BitStringsAreVectors : Prop :=
  (∀ (m n : Nat) (a : BitVec m) (b : BitVec n), chars (a ++ b) = chars a ++ chars b) ∧
  (∀ (w : Nat) (v : BitVec w), parseBase2 (chars v) = v.toNat) ∧
  (∀ (w : Nat) (a b : BitVec w), (chars (a ^^^ b)).length = w ∧
    parseBase2 (chars (a ^^^ b)) = parseBase2 (chars a) ^^^ parseBase2 (chars b))

/-- 42_key_schedule.md R140, and with it the schedule of R141: `SK(0) = KEY`; `SK(i)` is KEY rotated left by `i`, also by
`i mod 12`; each is the one before it with its first character moved to the end; and the file has exactly NROUNDS entries. -/
def Obligations.SubkeysAreRotationsOfTheKey : Prop :=
  (∀ (key : Key) (i : Nat), sk key 0 = key ∧ sk key i = key.rotateLeft i ∧ sk key i = sk key (i % 12) ∧
    chars (sk key (i + 1)) = firstToEnd (chars (sk key i))) ∧
  (∀ (c : Cfg) (i : Nat), (c.subkey i = some (sk c.key i) ↔ i < c.nrounds.toNat) ∧
    (c.subkey i = none ↔ c.nrounds.toNat ≤ i))

/-- 42_key_schedule.md R142: period 12, constant schedules for 0x000 and 0xFFF, and the same number of one bits. -/
def Obligations.ScheduleHasPeriodAndNoDiffusion : Prop :=
  (∀ (key : Key) (i : Nat), sk key (i + 12) = sk key i) ∧
  (∀ i : Nat, sk 0x000 i = 0x000 ∧ sk 0xFFF i = 0xFFF) ∧
  (∀ (key : Key) (i : Nat), (chars (sk key i)).count true = (chars key).count true)

/-- 43_round_function.md R164: ROUND passes R through, the new R depends on L only through the final XOR, that map is its
own inverse, and (L, R) is recovered as `(R' ^ F(L', K), L')`. -/
def Obligations.RoundIsRecoverable : Prop :=
  ∀ (t : Tables) (l m r : Half) (k : Key),
    (feistelRound t (l, r) k).1 = r ∧
    (feistelRound t (l, r) k).2 ^^^ (feistelRound t (m, r) k).2 = l ^^^ m ∧
    (l ^^^ roundF t r k) ^^^ roundF t r k = l ∧
    ((feistelRound t (l, r) k).2 ^^^ roundF t (feistelRound t (l, r) k).1 k, (feistelRound t (l, r) k).1) = (l, r)

/-! ## The cipher -/

/-- 44_feistel_engine.md R180 and R181, by their own recurrence: with `(L_0, R_0)` the halves of the block and each pair
`ROUND` of the one before it under `SK(0), SK(1), …` ascending for `ENCRYPT`, or `SK(N-1), …, SK(0)` for `DECRYPT`, the result
is `R_N ‖ L_N` in both directions. -/
def Obligations.CipherIsTheRoundLoop : Prop :=
  ∀ (t : Tables) (key : Key) (n : Nat) (b : Block) (l r : Nat → Half),
    l 0 = b.extractLsb' 8 8 → r 0 = b.extractLsb' 0 8 →
    ((∀ i, i < n → l (i + 1) = r i ∧ r (i + 1) = l i ^^^ roundF t (r i) (sk key i)) →
      encrypt t key n b = r n ++ l n) ∧
    ((∀ i, i < n → l (i + 1) = r i ∧ r (i + 1) = l i ^^^ roundF t (r i) (sk key (n - 1 - i))) →
      decrypt t key n b = r n ++ l n)

/-- 44_feistel_engine.md R184: `DECRYPT(ENCRYPT(B)) = B` for every block, key, round count and table contents. -/
def Obligations.DecryptInvertsEncrypt : Prop :=
  ∀ (t : Tables) (key : Key) (n : Nat) (b : Block), decrypt t key n (encrypt t key n b) = b

/-- 44_feistel_engine.md R185: the other order, and so `ENCRYPT` is a bijection on blocks. -/
def Obligations.EncryptIsABijection : Prop :=
  ∀ (t : Tables) (key : Key) (n : Nat),
    (∀ c : Block, encrypt t key n (decrypt t key n c) = c) ∧ Function.Bijective (encrypt t key n)

/-- The round trip on the machine: a configured engine that runs `ENC`, and then `DEC` on the DATA of its response, answers
with the block (44_feistel_engine.md R183, R184). -/
def Obligations.EncThenDecAnswersTheBlock : Prop :=
  ∀ (b : Block) (s : State), s.cfg.configured = true →
    ∃ t u : State, exec (.enc b) s = .next t ∧ exec (.dec (t.rsp.extractLsb' 0 16)) t = .next u ∧
      u.rsp = 0#4 ++ b ∧ u.cfg = s.cfg

/-- 44_feistel_engine.md R186: with N = 0 both `ENC` and `DEC` answer `swap16(B)`. -/
def Obligations.ZeroRoundsSwapTheHalves : Prop :=
  ∀ (b : Block) (s : State), s.cfg.configured = true → s.cfg.nrounds = 0 →
    ∃ t u : State, exec (.enc b) s = .next t ∧ t.rsp = 0#4 ++ (b.extractLsb' 0 8 ++ b.extractLsb' 8 8) ∧
      exec (.dec b) s = .next u ∧ u.rsp = 0#4 ++ (b.extractLsb' 0 8 ++ b.extractLsb' 8 8)

/-- 44_feistel_engine.md R187: with N = 1 both `ENC` and `DEC` answer `(B[15:8] ^ F(B[7:0], KEY)) ‖ B[7:0]`, which is
`swap16` of the `RND` response under KEY, and the cipher is its own inverse. -/
def Obligations.OneRoundCipherIsRndSwapped : Prop :=
  ∀ (b : Block) (s : State), s.cfg.configured = true → s.cfg.nrounds = 1 →
    ∃ t u v : State, exec (.enc b) s = .next t ∧ exec (.dec b) s = .next u ∧ exec (.rnd s.cfg.key b) s = .next v ∧
      t.rsp = 0#4 ++ ((b.extractLsb' 8 8 ^^^ roundF s.tables (b.extractLsb' 0 8) s.cfg.key) ++ b.extractLsb' 0 8) ∧
      u.rsp = t.rsp ∧ t.rsp.extractLsb' 0 16 = swap16 (v.rsp.extractLsb' 0 16) ∧
      ∃ x : State, exec (.enc (t.rsp.extractLsb' 0 16)) s = .next x ∧ x.rsp = 0#4 ++ b

/-- 44_feistel_engine.md R189: `DECRYPT` under `SK(0..N-1)` equals `ENCRYPT` under the reversed list. -/
def Obligations.DecryptIsEncryptUnderReversedSubkeys : Prop :=
  ∀ (t : Tables) (key : Key) (n : Nat) (b : Block),
    encrypt t key n b = encryptWith t ((List.range n).map (sk key)) b ∧
    decrypt t key n b = encryptWith t ((List.range n).map (sk key)).reverse b

/-- 95_test_vectors.md V-E5, for every number of rounds past the twelfth: since the subkeys repeat with period 12,
`ENCRYPT_(12+n) = ENCRYPT_n ∘ swap16 ∘ ENCRYPT_12` (44_feistel_engine.md R180, 42_key_schedule.md R142). -/
def Obligations.EncryptionSplitsAtThePeriod : Prop :=
  ∀ (t : Tables) (key : Key) (n : Nat) (b : Block),
    encrypt t key (12 + n) b = encrypt t key n (swap16 (encrypt t key 12 b))

/-- 44_feistel_engine.md R188, 40_control.md R101: any command, in two states with the same configuration and tables
(whatever else differs: earlier blocks, earlier responses, time), gives the same response and configuration. -/
def Obligations.ResponseDependsOnConfigurationAlone : Prop :=
  ∀ (i : Instr) (s t : State), s.cfg = t.cfg → s.tables = t.tables →
    ∃ u v : State, exec i s = .next u ∧ exec i t = .next v ∧ u.rsp = v.rsp ∧ u.cfg = v.cfg

/-! ## Errors and transactions -/

/-- 60_exceptions.md R205, on the raw bits of the accepted word: the ERR field of the response is the first that applies of
ILLEGAL_OPCODE, RESERVED_FIELD, NOT_CONFIGURED and SUBKEY_INDEX, and 0 where none does. -/
def Obligations.ErrorPriorityIsTheFirstThatApplies : Prop :=
  ∀ (extra : LatKey → Nat) (s : State), s.completing →
    ∃ t : State, stepWith extra s = .next t ∧ t.phase = .resp ∧
      (t.rsp.extractLsb' 16 4).toNat =
        if 8 ≤ s.cur.toNat / 2 ^ 28 then 1
        else if s.cur &&& rsvdMask (s.cur.extractLsb' 28 4) ≠ 0 then 2
        else if s.cur.toNat / 2 ^ 28 ∈ [2, 3, 7] ∧ s.cfg.configured = false then 3
        else if s.cur.toNat / 2 ^ 28 = 7 ∧ s.cfg.nrounds.toNat ≤ s.cur.toNat % 2 ^ 8 then 4
        else 0

/-- 60_exceptions.md R201: a command that answers an error has DATA = 0x0000, goes to RESP, and leaves every register but
RSP and PHASE as it stood, CONFIGURED, KEY and NROUNDS among them; once the host takes that response the engine is ready
for the next command. -/
def Obligations.ErrorResponseWritesNothingElse : Prop :=
  ∀ (extra : LatKey → Nat) (s t : State), s.completing → stepWith extra s = .next t → t.rsp.extractLsb' 16 4 ≠ 0 →
    t = { s.atEdge with rsp := t.rsp.extractLsb' 16 4 ++ 0x0000#16, phase := .resp } ∧ t.cfg = s.cfg ∧
    ∃ u : State, stepWith extra { t with script := [{ rst := false, cmdValid := false, cmdWord := 0, rspReady := true, readsRsp := false }] } = .next u ∧ u.cmdReady = true

/-- 40_control.md R101: at the BUSY → RESP edge, RSP and the configuration are the two parts of `Exec(cfg, CUR)`, for
every word; it reads nothing apart from the configuration, the word and the tables; and the configuration and CUR are as
they stood at acceptance: no step into or within BUSY changes the one, and none within BUSY the other. -/
def Obligations.CompletionIsExecOfTheWord : Prop :=
  (∀ (extra : LatKey → Nat) (s : State), s.completing →
    ∃ t : State, stepWith extra s = .next t ∧ t.phase = .resp ∧ (t.cfg, t.rsp) = transact s.tables s.cfg s.cur) ∧
  (∀ (extra : LatKey → Nat) (s t : State), stepWith extra s = .next t → t.phase = .busy →
    t.cfg = s.cfg ∧ (s.phase = .busy → t.cur = s.cur))

/-- 20_memory.md R57: every command but `CFG` changes no configuration, and sending one command twice in a row gives the
same response twice and leaves the configuration the first one left. -/
def Obligations.RepeatedCommandAnswersTheSame : Prop :=
  (∀ (i : Instr) (s t : State), exec i s = .next t → (∀ rounds key, i ≠ .cfg rounds key) → t.cfg = s.cfg) ∧
  (∀ (i : Instr) (s : State), ∃ t u : State, exec i s = .next t ∧ exec i t = .next u ∧ u.rsp = t.rsp ∧ u.cfg = t.cfg)

/-! ## The handshake, reset and the host -/

/-- 10_state.md R27: the outputs follow PHASE (and are 0 in a reset cycle, 70_reset_and_hazards.md R230), and PHASE moves
IDLE → BUSY on acceptance, BUSY → RESP after the latency, RESP → IDLE on taking, and not otherwise but for reset, which
sets it to IDLE. -/
def Obligations.PhaseFollowsTheHandshake : Prop :=
  (∀ s : State, (s.cmdReady = true ↔ s.pins.rst = false ∧ s.phase = .idle) ∧
    (s.rspValid = true ↔ s.pins.rst = false ∧ s.phase = .resp)) ∧
  (∀ (extra : LatKey → Nat) (s t : State), stepWith extra s = .next t → s.pins.rst = false →
    (s.phase = .idle → t.phase = if s.pins.cmdValid = true then .busy else .idle) ∧
    (s.phase = .busy → t.phase = if s.cyclesLeft ≤ 1 then .resp else .busy) ∧
    (s.phase = .resp → t.phase = if s.pins.rspReady = true then .idle else .resp)) ∧
  (∀ (extra : LatKey → Nat) (s t : State), stepWith extra s = .next t → s.pins.rst = true → t.phase = .idle)

/-- 40_control.md R100: at acceptance CUR takes the offered word and PHASE goes to BUSY, with LAT = extra + 1 edges to go
(R102); at taking PHASE goes to IDLE and the host has RSP; no other engine state changes. Both happen exactly where `rst = 0`
and valid and ready are 1, the outputs follow PHASE, and `rsp_word` shows RSP while `rsp_valid = 1`. That RSP keeps its word
after taking is the model's choice (log 21), and so are the record of the run (log 17), the standing offer (log 12) and what
the latency is a function of (log 6). -/
def Obligations.AcceptanceAndTakingEdges : Prop :=
  (∀ (extra : LatKey → Nat) (s : State), s.breaksReadDuty = false → s.breaksOfferDuty = false → s.accepts = true →
    stepWith extra s = .next { s with
      cur := s.pins.cmdWord, phase := .busy, cyclesLeft := extra (latKey s.pins.cmdWord s.cfg) + 1,
      log := { s.log with accepted := s.log.accepted ++ [s.pins.cmdWord] },
      script := s.script.tail, offer := none, tick := s.tick + 1 }) ∧
  (∀ (extra : LatKey → Nat) (s : State), s.breaksReadDuty = false → s.breaksOfferDuty = false → s.takes = true →
    stepWith extra s = .next { s with
      phase := .idle, log := { s.log with taken := s.log.taken ++ [s.rsp] },
      script := s.script.tail, offer := s.offerAfter, tick := s.tick + 1 }) ∧
  (∀ s : State,
    (s.accepts = true ↔ s.pins.rst = false ∧ s.pins.cmdValid = true ∧ s.cmdReady = true) ∧
    (s.takes = true ↔ s.pins.rst = false ∧ s.rspValid = true ∧ s.pins.rspReady = true) ∧
    (s.pins.rst = false → (s.cmdReady = true ↔ s.phase = .idle) ∧ (s.rspValid = true ↔ s.phase = .resp)) ∧
    (s.rspValid = true → s.rspWord = s.rsp) ∧
    (s.phase = .busy → s.cmdReady = false ∧ s.rspValid = false))

/-- An edge outside reset at which nothing is accepted or taken and no word executes leaves the engine as it is, but for
the count of BUSY edges: IDLE waits with no effect, RESP holds RSP steady (40_control.md R102, R104; 60_exceptions.md R212).
That CUR and RSP keep their words outside their phase, and L, R and RC theirs during BUSY, is the model's choice (log 21, log 8). -/
def Obligations.WaitingEdgesLeaveTheEngine : Prop :=
  ∀ (extra : LatKey → Nat) (s t : State), stepWith extra s = .next t → s.pins.rst = false →
    s.accepts = false → s.takes = false →
    (s.phase ≠ .busy → s.sameEngine t ∧ t.log = s.log) ∧
    (s.phase = .busy → 1 < s.cyclesLeft →
      State.sameEngine { s with cyclesLeft := s.cyclesLeft - 1 } t ∧ t.log = s.log)

/-- 70_reset_and_hazards.md R230: at every edge with `rst = 1` PHASE goes to IDLE and CONFIGURED to 0, no other register
changes, nothing is accepted or taken whatever the other inputs show, and the outputs read 0; the first edge with `rst = 0`
after it finds `cmd_ready = 1`. The host's record of the run starts anew (the model's own field, log 17); that the
unspecified registers keep the very values they had is the model's reading (log 9). -/
def Obligations.ResetEdgeClearsPhaseAndConfigured : Prop :=
  ∀ (extra : LatKey → Nat) (s : State), s.pins.rst = true → s.pins.readsRsp = false →
    s.cmdReady = false ∧ s.rspValid = false ∧ s.accepts = false ∧ s.takes = false ∧
    stepWith extra s = .next { s with
      phase := .idle, cfg := { s.cfg with configured := false }, log := { accepted := [], taken := [] },
      script := s.script.tail, offer := none, tick := s.tick + 1 } ∧
    ∀ t : State, stepWith extra s = .next t → t.pins.rst = false → t.cmdReady = true

/-- 70_reset_and_hazards.md R231: a reset in the middle of a command leaves exactly what the same reset leaves of an idle
engine, and a `CFG` abandoned while BUSY has written nothing: KEY and NROUNDS stand as they stood (that a reset itself keeps
their values is the model's reading, log 9; the empty record of responses is log 17). -/
def Obligations.ResetAbandonsTheCommandInFlight : Prop :=
  ∀ (extra : LatKey → Nat) (s : State), s.pins.rst = true → s.pins.readsRsp = false →
    stepWith extra s = stepWith extra { s with phase := .idle } ∧
    ∃ t : State, stepWith extra s = .next t ∧ t.phase = .idle ∧ t.cfg.configured = false ∧
      t.cfg.key = s.cfg.key ∧ t.cfg.nrounds = s.cfg.nrounds ∧ t.log.taken = []

/-- 10_state.md R29, 70_reset_and_hazards.md R230, R234: the machine after reset is IDLE with CONFIGURED = 0, is ready for a
command, and answers `ENC`, `DEC` and `SKEY` there with NOT_CONFIGURED. -/
def Obligations.ResetStateIsIdleAndUnconfigured : Prop :=
  State.reset.phase = .idle ∧ State.reset.cfg.configured = false ∧ State.reset.cmdReady = true ∧
  ∀ b i, ∃ t u v : State, exec (.enc b) State.reset = .next t ∧ exec (.dec b) State.reset = .next u ∧
    exec (.skey i) State.reset = .next v ∧ t.rsp = 0x30000#20 ∧ u.rsp = 0x30000#20 ∧ v.rsp = 0x30000#20

/-- 40_control.md R102: from the edge that accepts a word, PHASE is BUSY for LAT = extra + 1 edges and is RESP after them,
holding the word's response for as long as the host waits. -/
def Obligations.ResponseComesAfterLatEdges : Prop :=
  ∀ (extra : LatKey → Nat) (s : State) (e : PortIn), s.phase = .idle → s.script = [e] → e.rst = false →
    e.cmdValid = true → e.readsRsp = false → s.breaksOfferDuty = false →
    (∀ j, j ≤ extra (latKey e.cmdWord s.cfg) → ∃ t : State, runWith extra (1 + j) s = .next t ∧ t.phase = .busy) ∧
    (∀ m, ∃ t : State, runWith extra (1 + (extra (latKey e.cmdWord s.cfg) + 1) + m) s = .next t ∧
      t.phase = .resp ∧ (t.cfg, t.rsp) = transact s.tables s.cfg e.cmdWord)

/-- LAT depends on the command, on the ROUNDS of a `CFG` and on NROUNDS, and on no BLOCK, KEY, X, HALF, SUBKEY or INDEX: two
engines of one CONFIGURED and one NROUNDS that accept one kind of command have the same number of edges to go; and so have
two that accept any two words, illegal and reserved ones too, of one opcode and one class, with one ROUNDS where they are
`CFG` words (70_reset_and_hazards.md R239, R240). That LAT may see CONFIGURED, the ROUNDS of a `CFG` and whether a reserved
bit is set is the model's reading (log 6). -/
def Obligations.LatencyIgnoresData : Prop :=
  (∀ (extra : LatKey → Nat) (i j : Instr) (s t u v : State), i.matchWord = j.matchWord →
    (∀ n k, i = .cfg n k → ∃ k', j = .cfg n k') → s.pins.cmdWord = encode i → t.pins.cmdWord = encode j →
    s.accepts = true → t.accepts = true → s.cfg.configured = t.cfg.configured → s.cfg.nrounds = t.cfg.nrounds →
    stepWith extra s = .next u → stepWith extra t = .next v → u.cyclesLeft = v.cyclesLeft) ∧
  (∀ (extra : LatKey → Nat) (x y : Word) (s t u v : State), opcodeOf x = opcodeOf y →
    (x &&& rsvdMask (opcodeOf x) = 0 ↔ y &&& rsvdMask (opcodeOf y) = 0) →
    (opcodeOf x = 0x1#4 → x.extractLsb' 20 8 = y.extractLsb' 20 8) → s.pins.cmdWord = x → t.pins.cmdWord = y →
    s.accepts = true → t.accepts = true → s.cfg.configured = t.cfg.configured → s.cfg.nrounds = t.cfg.nrounds →
    stepWith extra s = .next u → stepWith extra t = .next v → u.cyclesLeft = v.cyclesLeft)

/-- The engine's outcomes in 60_exceptions.md R213, with the duties of 40_control.md R104: a step is refused exactly where the host reads `rsp_word`
without `rsp_valid`, or, outside reset, offers another word than the one it offered and that was not accepted; in every
other state, and for every word, it answers a next state. That a step which breaks both duties is refused for the read
(log 11), and that the offer duty is not checked in a reset cycle (log 12), are the model's choices. -/
def Obligations.StepStopsOnlyOnABrokenDuty : Prop :=
  ∀ (extra : LatKey → Nat) (s : State),
    (stepWith extra s = .refused .hostReadInvalidRsp ↔
      s.pins.readsRsp = true ∧ ¬(s.pins.rst = false ∧ s.phase = .resp)) ∧
    (stepWith extra s = .refused .hostChangedCmdWord ↔
      ¬(s.pins.readsRsp = true ∧ ¬(s.pins.rst = false ∧ s.phase = .resp)) ∧
      s.pins.rst = false ∧ s.pins.cmdValid = true ∧ ∃ w, s.offer = some w ∧ w ≠ s.pins.cmdWord) ∧
    ((∃ t : State, stepWith extra s = .next t) ∨ stepWith extra s = .refused .hostReadInvalidRsp ∨
      stepWith extra s = .refused .hostChangedCmdWord)

/-- The word the offer duty is about is the one offered at the last edge and not accepted there; withdrawing the offer, or
a reset cycle, ends it (40_control.md R104; the reset clause is the model's choice, log 12). -/
def Obligations.UnacceptedOfferIsRemembered : Prop :=
  ∀ (extra : LatKey → Nat) (s t : State) (w : Word), stepWith extra s = .next t →
    (t.offer = some w ↔ s.pins.rst = false ∧ s.pins.cmdValid = true ∧ s.pins.cmdWord = w ∧ s.accepts = false)

/-! ## Whole-machine rules -/

/-- 10_state.md R23: only a successful `CFG` sets CONFIGURED, only reset clears it, and `ENC`, `DEC` and `SKEY` complete with
NOT_CONFIGURED while it is 0. -/
def Obligations.ConfiguredIsSetByCfgAndClearedByReset : Prop :=
  (∀ (extra : LatKey → Nat) (s t : State), stepWith extra s = .next t →
    (s.cfg.configured = false → t.cfg.configured = true →
      s.completing ∧ t.rsp = 0x00000#20 ∧ ∃ rounds key, decode s.cur = .ok (.cfg rounds key)) ∧
    (s.cfg.configured = true → (t.cfg.configured = false ↔ s.pins.rst = true))) ∧
  (∀ (s : State) (i : Instr), s.cfg.configured = false → (∃ b, i = .enc b ∨ i = .dec b) ∨ (∃ j, i = .skey j) →
    exec i s = .next { s with rsp := 0x30000#20, phase := .resp })

/-- KEY and NROUNDS change only at the edge at which a `CFG` completes, to its operands (10_state.md R25, R26, R30;
42_key_schedule.md R143). -/
def Obligations.KeyAndRoundsAreWrittenByCfgOnly : Prop :=
  ∀ (extra : LatKey → Nat) (s t : State), stepWith extra s = .next t →
    (t.cfg.key ≠ s.cfg.key ∨ t.cfg.nrounds ≠ s.cfg.nrounds) →
    s.completing ∧ ∃ rounds key, decode s.cur = .ok (.cfg rounds key) ∧
      t.cfg = { configured := true, key := key, nrounds := rounds }

/-- No step writes the substitution tables: no command, no reset, no configuration (41_sbox.md R120, 10_state.md R31). -/
def Obligations.TablesAreNeverWritten : Prop :=
  ∀ (extra : LatKey → Nat) (s t : State), stepWith extra s = .next t → t.tables = s.tables

/-- Every step keeps the structural invariant: BUSY has an edge to go, RC is legal, every response is one the engine can
give, and each accepted command has exactly one response, taken or due (10_state.md R29; 20_memory.md R59;
60_exceptions.md R202). -/
def Obligations.EveryStepKeepsTheInvariant : Prop :=
  ∀ (extra : LatKey → Nat) (s t : State), s.Inv → stepWith extra s = .next t → t.Inv

/-- The structural invariant holds right after reset. -/
def Obligations.ResetMeetsTheInvariant : Prop := State.reset.Inv

/-- 40_control.md R106: along a run outside reset, under any latencies and any host, configuration and responses stay the
fold of `Exec` over the executed words; and where the run has ended, its observation is the fold over all its words. -/
def Obligations.EveryRunIsTheFoldOfExec : Prop :=
  (∀ (extra : LatKey → Nat) (c : Cfg) (s t : State), s.OnRunFrom c → stepWith extra s = .next t → s.pins.rst = false →
    t.OnRunFrom c) ∧
  (∀ (c : Cfg) (s : State), s.OnRunFrom c → s.ended → transactAll s.tables c s.log.accepted = (s.cfg, s.log.taken))

/-- A reset edge, from any state, starts a run from an unconfigured engine; and the state right after reset is on one
(40_control.md R106, 70_reset_and_hazards.md R230; that the record starts anew is the model's choice, log 17). -/
def Obligations.ResetStartsARun : Prop :=
  (∀ (extra : LatKey → Nat) (s t : State), stepWith extra s = .next t → s.pins.rst = true →
    t.OnRunFrom t.cfg ∧ t.ended ∧ t.cfg.configured = false) ∧
  State.reset.OnRunFrom State.reset.cfg

/-- Every list of command words can be run to its end, from any idle engine with no offer standing, under any latencies:
there are host inputs and a number of edges after which all responses are taken, and configuration and responses are the
fold of `Exec` (40_control.md R102, R103, R106). -/
def Obligations.EveryCommandListRunsToItsEnd : Prop :=
  ∀ (extra : LatKey → Nat) (ws : List Word) (s : State), s.phase = .idle → s.offer = none →
    ∃ (script : List PortIn) (k : Nat) (t : State), runWith extra k { s with script := script } = .next t ∧
      t.phase = .idle ∧ t.cfg = (transactAll s.tables s.cfg ws).1 ∧
      t.log.accepted = s.log.accepted ++ ws ∧
      t.log.taken = s.log.taken ++ (transactAll s.tables s.cfg ws).2

/-- 10_state.md R32: two states that agree on their architectural view (KEY and NROUNDS where CONFIGURED = 1, CUR in BUSY,
RSP in RESP, and the host's side) show the host the same outputs and take steps whose answers agree on that view: no L, R,
RC, and no CUR, RSP, KEY or NROUNDS outside those, is ever read. -/
def Obligations.StepReadsArchitecturalStateOnly : Prop :=
  ∀ (extra : LatKey → Nat) (s t : State), s.arch = t.arch →
    s.cmdReady = t.cmdReady ∧ s.rspValid = t.rspValid ∧ (s.rspValid = true → s.rspWord = t.rspWord) ∧
    answerView (stepWith extra s) = answerView (stepWith extra t)

/-- 60_exceptions.md R210: a step of one engine of a platform leaves every other engine and the tables as they were, and is
that engine's own step. -/
def Obligations.EnginesShareNothing : Prop :=
  ∀ (p q : Platform) (i : Nat), p.stepAt i = some q →
    q.tables = p.tables ∧ (∀ j, j ≠ i → q.engine j = p.engine j) ∧
    ∃ s t : State, p.engine i = some s ∧ q.engine i = some t ∧ step s = .next t

/-- 60_exceptions.md R210: any two engines of one platform that are configured with the same KEY and NROUNDS give the same
response to the same block, encrypted or decrypted; and both read the platform's one copy of the tables. -/
def Obligations.EnginesConfiguredAlikeAgree : Prop :=
  ∀ (p : Platform) (i j : Nat) (s t : State), p.engine i = some s → p.engine j = some t →
    s.tables = p.tables ∧ t.tables = p.tables ∧
    (s.cfg.configured = true → t.cfg.configured = true → s.cfg.key = t.cfg.key → s.cfg.nrounds = t.cfg.nrounds →
      ∀ b : Block,
        (∃ u v : State, exec (.enc b) s = .next u ∧ exec (.enc b) t = .next v ∧ u.rsp = v.rsp) ∧
        (∃ u v : State, exec (.dec b) s = .next u ∧ exec (.dec b) t = .next v ∧ u.rsp = v.rsp))

/-! ## Assembly -/

/-- 30_encoding.md R87: `cfg KEY` is `cfg KEY, 6`, for every key; and the worked lines of R86. -/
def Obligations.AssemblyExamplesAssemble : Prop :=
  (∀ key : Nat, assembleSource (.cfg key none) = assembleSource (.cfg key (some 6))) ∧
  assembleLine "cfg 0x0A5, 6".toList = .ok (some 0x106000A5) ∧
  assembleLine "cfg 0x0A5".toList = .ok (some 0x106000A5) ∧
  assembleLine "enc 0x4142".toList = .ok (some 0x20004142) ∧
  assembleLine "rnd 0x4142, 0x0A5".toList = .ok (some 0x40A54142) ∧
  assembleLine "skey 1".toList = .ok (some 0x70000001) ∧
  assembleLine "exp 0b10100101 ; a comment".toList = .ok (some 0x600000A5) ∧
  assembleLine ".word 0x80000000".toList = .ok (some 0x80000000) ∧
  assembleLine "enc 65536".toList = .error .operandTooWide

/-- Assembling never truncates: a source command other than `.word` assembles only to a word that decodes to a command with
exactly its operands (the pseudo-instruction expanded), and every command's listing assembles to its word
(30_encoding.md R86, R87). -/
def Obligations.AssemblingNeverTruncates : Prop :=
  (∀ (c : Source) (w : Word), assembleSource c = .ok w → (∀ v, c ≠ .word v) →
    ∃ i, decode w = .ok i ∧ sourceOfInstr i = expandPseudo c) ∧
  (∀ i : Instr, assembleSource (sourceOfInstr i) = .ok (encode i))
end

