-- ==== Sys2Proof/Laws/Bits.lean ====
section
/-! SUPPORT. Fields of concatenations: which part of `a ++ b` a field falls in. -/

namespace Sys2Proof.Laws

theorem extract_append_low {m n : Nat} (a : BitVec m) (b : BitVec n) (start len : Nat) (h : start + len ≤ n) :
    (a ++ b).extractLsb' start len = b.extractLsb' start len := by
  ext i hi
  simp only [BitVec.getElem_extractLsb', BitVec.getLsbD_append]
  simp [show start + i < n by omega]

theorem extract_append_high {m n : Nat} (a : BitVec m) (b : BitVec n) (start len : Nat) (h : n ≤ start) :
    (a ++ b).extractLsb' start len = a.extractLsb' (start - n) len := by
  ext i hi
  simp only [BitVec.getElem_extractLsb', BitVec.getLsbD_append]
  simp [show ¬ start + i < n by omega, show start + i - n = start - n + i by omega]

theorem extract_whole {n : Nat} (a : BitVec n) : a.extractLsb' 0 n = a := by
  ext i hi
  simp

/-- Two neighbouring fields joined are one field. -/
theorem extract_join {n : Nat} (a : BitVec n) (start len len' : Nat) :
    a.extractLsb' (start + len) len' ++ a.extractLsb' start len = (a.extractLsb' start (len' + len)) := by
  ext i hi
  simp only [BitVec.getElem_append, BitVec.getElem_extractLsb']
  split
  · rfl
  · next h => rw [show start + len + (i - len) = start + i by omega]

/-- A field that a mask covers is zero where the masked word is. -/
theorem extract_zero_of_and {n : Nat} {w m : BitVec n} (start len : Nat) (h : w &&& m = 0#n)
    (hm : m.extractLsb' start len = BitVec.allOnes len) : w.extractLsb' start len = 0#len := by
  have := congrArg (BitVec.extractLsb' start len) h
  rw [BitVec.extractLsb'_and, hm, BitVec.and_allOnes] at this
  simpa using this

theorem and_append {m n : Nat} (a c : BitVec m) (b d : BitVec n) : (a ++ b) &&& (c ++ d) = (a &&& c) ++ (b &&& d) := by
  rw [BitVec.and_append]

end Sys2Proof.Laws
end

