-- ==== Sys2Proof/Laws/PerInstr.lean ====
section
/-! SUPPORT. Statements about every command as syntax, one lemma per constructor. -/

namespace Sys2Proof.Laws

/-- The encoding of a command matches its row of 30_encoding.md R73 and holds no operand bit outside its fields. -/
def MatchMask.Statement (i : Instr) : Prop := encode i &&& i.maskWord = i.matchWord

namespace MatchMask

theorem nop : Statement .nop := by unfold Statement; decide

theorem cfg (rounds : BitVec 8) (key : Key) : Statement (.cfg rounds key) := by
  show (0x1#4 ++ rounds ++ 0#8 ++ key) &&& (0xF#4 ++ 0#8 ++ 0xFF#8 ++ 0#12) = _
  simp only [and_append, BitVec.and_zero]
  rfl

theorem enc (block : Block) : Statement (.enc block) := by
  show (0x2#4 ++ 0#12 ++ block) &&& (0xF#4 ++ 0xFFF#12 ++ 0#16) = _
  simp only [and_append, BitVec.and_zero]
  rfl

theorem dec (block : Block) : Statement (.dec block) := by
  show (0x3#4 ++ 0#12 ++ block) &&& (0xF#4 ++ 0xFFF#12 ++ 0#16) = _
  simp only [and_append, BitVec.and_zero]
  rfl

theorem rnd (subkey : Key) (block : Block) : Statement (.rnd subkey block) := by
  show (0x4#4 ++ subkey ++ block) &&& (0xF#4 ++ 0#12 ++ 0#16) = _
  simp only [and_append, BitVec.and_zero]
  rfl

theorem sbox (x : Key) : Statement (.sbox x) := by
  show (0x5#4 ++ 0#16 ++ x) &&& (0xF#4 ++ 0xFFFF#16 ++ 0#12) = _
  simp only [and_append, BitVec.and_zero]
  rfl

theorem exp (half : Half) : Statement (.exp half) := by
  show (0x6#4 ++ 0#20 ++ half) &&& (0xF#4 ++ 0xFFFFF#20 ++ 0#8) = _
  simp only [and_append, BitVec.and_zero]
  rfl

theorem skey (index : BitVec 8) : Statement (.skey index) := by
  show (0x7#4 ++ 0#20 ++ index) &&& (0xF#4 ++ 0xFFFFF#20 ++ 0#8) = _
  simp only [and_append, BitVec.and_zero]
  rfl

end MatchMask

/-- The opcode field of a command's word is that of its row of 30_encoding.md R73. -/
def OpcodeField.Statement (i : Instr) : Prop := opcodeOf (encode i) = opcodeOf i.matchWord

namespace OpcodeField

theorem nop : Statement .nop := rfl

theorem cfg (rounds : BitVec 8) (key : Key) : Statement (.cfg rounds key) := by
  show (0x1#4 ++ rounds ++ 0#8 ++ key).extractLsb' 28 4 = BitVec.extractLsb' 28 4 0x10000000#32
  simp (disch := omega) only [extract_append_high]
  decide

theorem enc (block : Block) : Statement (.enc block) := by
  show (0x2#4 ++ 0#12 ++ block).extractLsb' 28 4 = BitVec.extractLsb' 28 4 0x20000000#32
  simp (disch := omega) only [extract_append_high]
  decide

theorem dec (block : Block) : Statement (.dec block) := by
  show (0x3#4 ++ 0#12 ++ block).extractLsb' 28 4 = BitVec.extractLsb' 28 4 0x30000000#32
  simp (disch := omega) only [extract_append_high]
  decide

theorem rnd (subkey : Key) (block : Block) : Statement (.rnd subkey block) := by
  show (0x4#4 ++ subkey ++ block).extractLsb' 28 4 = BitVec.extractLsb' 28 4 0x40000000#32
  simp (disch := omega) only [extract_append_high]
  decide

theorem sbox (x : Key) : Statement (.sbox x) := by
  show (0x5#4 ++ 0#16 ++ x).extractLsb' 28 4 = BitVec.extractLsb' 28 4 0x50000000#32
  simp (disch := omega) only [extract_append_high]
  decide

theorem exp (half : Half) : Statement (.exp half) := by
  show (0x6#4 ++ 0#20 ++ half).extractLsb' 28 4 = BitVec.extractLsb' 28 4 0x60000000#32
  simp (disch := omega) only [extract_append_high]
  decide

theorem skey (index : BitVec 8) : Statement (.skey index) := by
  show (0x7#4 ++ 0#20 ++ index).extractLsb' 28 4 = BitVec.extractLsb' 28 4 0x70000000#32
  simp (disch := omega) only [extract_append_high]
  decide

end OpcodeField

/-- No word of a command has a reserved bit set (30_encoding.md R72, R83). -/
def NoReservedBit.Statement (i : Instr) : Prop := hasReservedBit (encode i) = false

namespace NoReservedBit

theorem nop : Statement .nop := rfl

theorem cfg (rounds : BitVec 8) (key : Key) : Statement (.cfg rounds key) := by
  unfold Statement hasReservedBit
  rw [OpcodeField.cfg rounds key]
  rw [show rsvdMask (opcodeOf (Instr.cfg rounds key).matchWord) = 0x000FF000#32 from (by decide : rsvdMask (opcodeOf 0x10000000#32) = 0x000FF000#32)]
  show ((0x1#4 ++ rounds ++ 0#8 ++ key) &&& (0#4 ++ 0#8 ++ 0xFF#8 ++ 0#12) != 0) = false
  simp only [and_append, BitVec.and_zero]
  rfl

theorem enc (block : Block) : Statement (.enc block) := by
  unfold Statement hasReservedBit
  rw [OpcodeField.enc block]
  rw [show rsvdMask (opcodeOf (Instr.enc block).matchWord) = 0x0FFF0000#32 from (by decide : rsvdMask (opcodeOf 0x20000000#32) = 0x0FFF0000#32)]
  show ((0x2#4 ++ 0#12 ++ block) &&& (0#4 ++ 0xFFF#12 ++ 0#16) != 0) = false
  simp only [and_append, BitVec.and_zero]
  rfl

theorem dec (block : Block) : Statement (.dec block) := by
  unfold Statement hasReservedBit
  rw [OpcodeField.dec block]
  rw [show rsvdMask (opcodeOf (Instr.dec block).matchWord) = 0x0FFF0000#32 from (by decide : rsvdMask (opcodeOf 0x30000000#32) = 0x0FFF0000#32)]
  show ((0x3#4 ++ 0#12 ++ block) &&& (0#4 ++ 0xFFF#12 ++ 0#16) != 0) = false
  simp only [and_append, BitVec.and_zero]
  rfl

theorem rnd (subkey : Key) (block : Block) : Statement (.rnd subkey block) := by
  unfold Statement hasReservedBit
  rw [OpcodeField.rnd subkey block]
  rw [show rsvdMask (opcodeOf (Instr.rnd subkey block).matchWord) = 0x00000000#32 from (by decide : rsvdMask (opcodeOf 0x40000000#32) = 0x00000000#32)]
  show ((0x4#4 ++ subkey ++ block) &&& (0#4 ++ 0#12 ++ 0#16) != 0) = false
  simp only [and_append, BitVec.and_zero]
  rfl

theorem sbox (x : Key) : Statement (.sbox x) := by
  unfold Statement hasReservedBit
  rw [OpcodeField.sbox x]
  rw [show rsvdMask (opcodeOf (Instr.sbox x).matchWord) = 0x0FFFF000#32 from (by decide : rsvdMask (opcodeOf 0x50000000#32) = 0x0FFFF000#32)]
  show ((0x5#4 ++ 0#16 ++ x) &&& (0#4 ++ 0xFFFF#16 ++ 0#12) != 0) = false
  simp only [and_append, BitVec.and_zero]
  rfl

theorem exp (half : Half) : Statement (.exp half) := by
  unfold Statement hasReservedBit
  rw [OpcodeField.exp half]
  rw [show rsvdMask (opcodeOf (Instr.exp half).matchWord) = 0x0FFFFF00#32 from (by decide : rsvdMask (opcodeOf 0x60000000#32) = 0x0FFFFF00#32)]
  show ((0x6#4 ++ 0#20 ++ half) &&& (0#4 ++ 0xFFFFF#20 ++ 0#8) != 0) = false
  simp only [and_append, BitVec.and_zero]
  rfl

theorem skey (index : BitVec 8) : Statement (.skey index) := by
  unfold Statement hasReservedBit
  rw [OpcodeField.skey index]
  rw [show rsvdMask (opcodeOf (Instr.skey index).matchWord) = 0x0FFFFF00#32 from (by decide : rsvdMask (opcodeOf 0x70000000#32) = 0x0FFFFF00#32)]
  show ((0x7#4 ++ 0#20 ++ index) &&& (0#4 ++ 0xFFFFF#20 ++ 0#8) != 0) = false
  simp only [and_append, BitVec.and_zero]
  rfl

end NoReservedBit

/-- The fields of a command's word are the command's operands (30_encoding.md R72, R84). -/
def CommandFields.Statement (i : Instr) : Prop := commandOf (encode i) = i

namespace CommandFields

theorem nop : Statement .nop := rfl

theorem cfg (rounds : BitVec 8) (key : Key) : Statement (.cfg rounds key) := by
  unfold Statement commandOf
  rw [OpcodeField.cfg rounds key,
    show (opcodeOf (Instr.cfg rounds key).matchWord).toNat = 1 from (by decide : (opcodeOf 0x10000000#32).toNat = 1)]
  show Instr.cfg ((0x1#4 ++ rounds ++ 0#8 ++ key).extractLsb' 20 8) ((0x1#4 ++ rounds ++ 0#8 ++ key).extractLsb' 0 12) = _
  simp (disch := omega) only [extract_append_low, extract_append_high, Nat.reduceSub, extract_whole]

theorem enc (block : Block) : Statement (.enc block) := by
  unfold Statement commandOf
  rw [OpcodeField.enc block,
    show (opcodeOf (Instr.enc block).matchWord).toNat = 2 from (by decide : (opcodeOf 0x20000000#32).toNat = 2)]
  show Instr.enc ((0x2#4 ++ 0#12 ++ block).extractLsb' 0 16) = _
  simp (disch := omega) only [extract_append_low, extract_whole]

theorem dec (block : Block) : Statement (.dec block) := by
  unfold Statement commandOf
  rw [OpcodeField.dec block,
    show (opcodeOf (Instr.dec block).matchWord).toNat = 3 from (by decide : (opcodeOf 0x30000000#32).toNat = 3)]
  show Instr.dec ((0x3#4 ++ 0#12 ++ block).extractLsb' 0 16) = _
  simp (disch := omega) only [extract_append_low, extract_whole]

theorem rnd (subkey : Key) (block : Block) : Statement (.rnd subkey block) := by
  unfold Statement commandOf
  rw [OpcodeField.rnd subkey block,
    show (opcodeOf (Instr.rnd subkey block).matchWord).toNat = 4 from (by decide : (opcodeOf 0x40000000#32).toNat = 4)]
  show Instr.rnd ((0x4#4 ++ subkey ++ block).extractLsb' 16 12) ((0x4#4 ++ subkey ++ block).extractLsb' 0 16) = _
  simp (disch := omega) only [extract_append_low, extract_append_high, Nat.sub_self, extract_whole]

theorem sbox (x : Key) : Statement (.sbox x) := by
  unfold Statement commandOf
  rw [OpcodeField.sbox x,
    show (opcodeOf (Instr.sbox x).matchWord).toNat = 5 from (by decide : (opcodeOf 0x50000000#32).toNat = 5)]
  show Instr.sbox ((0x5#4 ++ 0#16 ++ x).extractLsb' 0 12) = _
  simp (disch := omega) only [extract_append_low, extract_whole]

theorem exp (half : Half) : Statement (.exp half) := by
  unfold Statement commandOf
  rw [OpcodeField.exp half,
    show (opcodeOf (Instr.exp half).matchWord).toNat = 6 from (by decide : (opcodeOf 0x60000000#32).toNat = 6)]
  show Instr.exp ((0x6#4 ++ 0#20 ++ half).extractLsb' 0 8) = _
  simp (disch := omega) only [extract_append_low, extract_whole]

theorem skey (index : BitVec 8) : Statement (.skey index) := by
  unfold Statement commandOf
  rw [OpcodeField.skey index,
    show (opcodeOf (Instr.skey index).matchWord).toNat = 7 from (by decide : (opcodeOf 0x70000000#32).toNat = 7)]
  show Instr.skey ((0x7#4 ++ 0#20 ++ index).extractLsb' 0 8) = _
  simp (disch := omega) only [extract_append_low, extract_whole]

end CommandFields

end Sys2Proof.Laws
end

