-- ==== Sys2Proof/Laws/Platform.lean ====
section
/-! SUPPORT. What reading an engine of a platform gives, and what one platform step can do. -/

namespace Sys2Proof.Machine

@[simp] theorem Platform.setEngine_tables (p : Platform) (i : Nat) (t : State) : (p.setEngine i t).tables = p.tables := rfl

@[simp] theorem Platform.setEngine_engines (p : Platform) (i : Nat) (t : State) :
    (p.setEngine i t).engines = p.engines.set i t := rfl

/-- Every engine of a platform reads the platform's tables (60_exceptions.md R210). -/
theorem Platform.engine_tables {p : Platform} {i : Nat} {s : State} (h : p.engine i = some s) : s.tables = p.tables := by
  obtain ⟨t, -, rfl⟩ := Option.map_eq_some_iff.1 h
  rfl

/-- Writing one engine leaves the others. -/
theorem Platform.engine_setEngine_ne (p : Platform) {i j : Nat} (t : State) (h : j ≠ i) :
    (p.setEngine i t).engine j = p.engine j := by
  simp [Platform.engine, List.getElem?_set_ne h.symm]

/-- Writing an engine that is there gives that state, with the platform's tables. -/
theorem Platform.engine_setEngine_self {p : Platform} {i : Nat} {s : State} (t : State) (h : p.engine i = some s) :
    (p.setEngine i t).engine i = some { t with tables := p.tables } := by
  obtain ⟨u, hu, -⟩ := Option.map_eq_some_iff.1 h
  obtain ⟨hi, -⟩ := List.getElem?_eq_some_iff.1 hu
  simp [Platform.engine, hi]

/-- A platform step is one step of one of its engines. -/
theorem Platform.stepAt_cases {p q : Platform} {i : Nat} (h : p.stepAt i = some q) :
    ∃ s t : State, p.engine i = some s ∧ step s = .next t ∧ q = p.setEngine i t := by
  unfold Platform.stepAt at h
  split at h
  · cases h
  · next s hs =>
    split at h
    · next t ht => cases h; exact ⟨s, t, hs, ht, rfl⟩
    · cases h
    · cases h

end Sys2Proof.Machine
end

