-- ==== Sys2Proof/Laws/State.lean ====
section
/-! SUPPORT. The field of each update of State, one lemma per field per update, true by rfl. -/

namespace Sys2Proof.Machine

@[simp] theorem State.answer_cfg (s : State) (w : RspWord) : (s.answer w).cfg = s.cfg := rfl
@[simp] theorem State.answer_phase (s : State) (w : RspWord) : (s.answer w).phase = .resp := rfl
@[simp] theorem State.answer_cyclesLeft (s : State) (w : RspWord) : (s.answer w).cyclesLeft = s.cyclesLeft := rfl
@[simp] theorem State.answer_cur (s : State) (w : RspWord) : (s.answer w).cur = s.cur := rfl
@[simp] theorem State.answer_rsp (s : State) (w : RspWord) : (s.answer w).rsp = w := rfl
@[simp] theorem State.answer_work (s : State) (w : RspWord) : (s.answer w).work = s.work := rfl
@[simp] theorem State.answer_tables (s : State) (w : RspWord) : (s.answer w).tables = s.tables := rfl
@[simp] theorem State.answer_script (s : State) (w : RspWord) : (s.answer w).script = s.script := rfl
@[simp] theorem State.answer_offer (s : State) (w : RspWord) : (s.answer w).offer = s.offer := rfl
@[simp] theorem State.answer_log (s : State) (w : RspWord) : (s.answer w).log = s.log := rfl
@[simp] theorem State.answer_tick (s : State) (w : RspWord) : (s.answer w).tick = s.tick := rfl

@[simp] theorem State.respond_cfg (s : State) (d : BitVec 16) : (s.respond d).cfg = s.cfg := rfl
@[simp] theorem State.respond_phase (s : State) (d : BitVec 16) : (s.respond d).phase = .resp := rfl
@[simp] theorem State.respond_cyclesLeft (s : State) (d : BitVec 16) : (s.respond d).cyclesLeft = s.cyclesLeft := rfl
@[simp] theorem State.respond_cur (s : State) (d : BitVec 16) : (s.respond d).cur = s.cur := rfl
@[simp] theorem State.respond_rsp (s : State) (d : BitVec 16) : (s.respond d).rsp = rspOf 0 d := rfl
@[simp] theorem State.respond_work (s : State) (d : BitVec 16) : (s.respond d).work = s.work := rfl
@[simp] theorem State.respond_tables (s : State) (d : BitVec 16) : (s.respond d).tables = s.tables := rfl
@[simp] theorem State.respond_script (s : State) (d : BitVec 16) : (s.respond d).script = s.script := rfl
@[simp] theorem State.respond_offer (s : State) (d : BitVec 16) : (s.respond d).offer = s.offer := rfl
@[simp] theorem State.respond_log (s : State) (d : BitVec 16) : (s.respond d).log = s.log := rfl
@[simp] theorem State.respond_tick (s : State) (d : BitVec 16) : (s.respond d).tick = s.tick := rfl

@[simp] theorem State.raiseError_cfg (s : State) (e : ErrCode) : (s.raiseError e).cfg = s.cfg := rfl
@[simp] theorem State.raiseError_phase (s : State) (e : ErrCode) : (s.raiseError e).phase = .resp := rfl
@[simp] theorem State.raiseError_cyclesLeft (s : State) (e : ErrCode) : (s.raiseError e).cyclesLeft = s.cyclesLeft := rfl
@[simp] theorem State.raiseError_cur (s : State) (e : ErrCode) : (s.raiseError e).cur = s.cur := rfl
@[simp] theorem State.raiseError_rsp (s : State) (e : ErrCode) : (s.raiseError e).rsp = errorWord e := rfl
@[simp] theorem State.raiseError_work (s : State) (e : ErrCode) : (s.raiseError e).work = s.work := rfl
@[simp] theorem State.raiseError_tables (s : State) (e : ErrCode) : (s.raiseError e).tables = s.tables := rfl
@[simp] theorem State.raiseError_script (s : State) (e : ErrCode) : (s.raiseError e).script = s.script := rfl
@[simp] theorem State.raiseError_offer (s : State) (e : ErrCode) : (s.raiseError e).offer = s.offer := rfl
@[simp] theorem State.raiseError_log (s : State) (e : ErrCode) : (s.raiseError e).log = s.log := rfl
@[simp] theorem State.raiseError_tick (s : State) (e : ErrCode) : (s.raiseError e).tick = s.tick := rfl

@[simp] theorem State.writeCfg_cfg (s : State) (c : Cfg) : (s.writeCfg c).cfg = c := rfl
@[simp] theorem State.writeCfg_phase (s : State) (c : Cfg) : (s.writeCfg c).phase = s.phase := rfl
@[simp] theorem State.writeCfg_cyclesLeft (s : State) (c : Cfg) : (s.writeCfg c).cyclesLeft = s.cyclesLeft := rfl
@[simp] theorem State.writeCfg_cur (s : State) (c : Cfg) : (s.writeCfg c).cur = s.cur := rfl
@[simp] theorem State.writeCfg_rsp (s : State) (c : Cfg) : (s.writeCfg c).rsp = s.rsp := rfl
@[simp] theorem State.writeCfg_work (s : State) (c : Cfg) : (s.writeCfg c).work = s.work := rfl
@[simp] theorem State.writeCfg_tables (s : State) (c : Cfg) : (s.writeCfg c).tables = s.tables := rfl
@[simp] theorem State.writeCfg_script (s : State) (c : Cfg) : (s.writeCfg c).script = s.script := rfl
@[simp] theorem State.writeCfg_offer (s : State) (c : Cfg) : (s.writeCfg c).offer = s.offer := rfl
@[simp] theorem State.writeCfg_log (s : State) (c : Cfg) : (s.writeCfg c).log = s.log := rfl
@[simp] theorem State.writeCfg_tick (s : State) (c : Cfg) : (s.writeCfg c).tick = s.tick := rfl

@[simp] theorem State.writeHalves_cfg (s : State) (l r : Half) : (s.writeHalves l r).cfg = s.cfg := rfl
@[simp] theorem State.writeHalves_phase (s : State) (l r : Half) : (s.writeHalves l r).phase = s.phase := rfl
@[simp] theorem State.writeHalves_cyclesLeft (s : State) (l r : Half) : (s.writeHalves l r).cyclesLeft = s.cyclesLeft := rfl
@[simp] theorem State.writeHalves_cur (s : State) (l r : Half) : (s.writeHalves l r).cur = s.cur := rfl
@[simp] theorem State.writeHalves_rsp (s : State) (l r : Half) : (s.writeHalves l r).rsp = s.rsp := rfl
@[simp] theorem State.writeHalves_work (s : State) (l r : Half) : (s.writeHalves l r).work = { s.work with l := l, r := r } := rfl
@[simp] theorem State.writeHalves_tables (s : State) (l r : Half) : (s.writeHalves l r).tables = s.tables := rfl
@[simp] theorem State.writeHalves_script (s : State) (l r : Half) : (s.writeHalves l r).script = s.script := rfl
@[simp] theorem State.writeHalves_offer (s : State) (l r : Half) : (s.writeHalves l r).offer = s.offer := rfl
@[simp] theorem State.writeHalves_log (s : State) (l r : Half) : (s.writeHalves l r).log = s.log := rfl
@[simp] theorem State.writeHalves_tick (s : State) (l r : Half) : (s.writeHalves l r).tick = s.tick := rfl

@[simp] theorem State.loadBlock_cfg (s : State) (b : Block) : (s.loadBlock b).cfg = s.cfg := rfl
@[simp] theorem State.loadBlock_phase (s : State) (b : Block) : (s.loadBlock b).phase = s.phase := rfl
@[simp] theorem State.loadBlock_cyclesLeft (s : State) (b : Block) : (s.loadBlock b).cyclesLeft = s.cyclesLeft := rfl
@[simp] theorem State.loadBlock_cur (s : State) (b : Block) : (s.loadBlock b).cur = s.cur := rfl
@[simp] theorem State.loadBlock_rsp (s : State) (b : Block) : (s.loadBlock b).rsp = s.rsp := rfl
@[simp] theorem State.loadBlock_work (s : State) (b : Block) : (s.loadBlock b).work = { s.work with l := blockL b, r := blockR b } := rfl
@[simp] theorem State.loadBlock_tables (s : State) (b : Block) : (s.loadBlock b).tables = s.tables := rfl
@[simp] theorem State.loadBlock_script (s : State) (b : Block) : (s.loadBlock b).script = s.script := rfl
@[simp] theorem State.loadBlock_offer (s : State) (b : Block) : (s.loadBlock b).offer = s.offer := rfl
@[simp] theorem State.loadBlock_log (s : State) (b : Block) : (s.loadBlock b).log = s.log := rfl
@[simp] theorem State.loadBlock_tick (s : State) (b : Block) : (s.loadBlock b).tick = s.tick := rfl

@[simp] theorem State.writeRC_cfg (s : State) (n : Nat) : (s.writeRC n).cfg = s.cfg := rfl
@[simp] theorem State.writeRC_phase (s : State) (n : Nat) : (s.writeRC n).phase = s.phase := rfl
@[simp] theorem State.writeRC_cyclesLeft (s : State) (n : Nat) : (s.writeRC n).cyclesLeft = s.cyclesLeft := rfl
@[simp] theorem State.writeRC_cur (s : State) (n : Nat) : (s.writeRC n).cur = s.cur := rfl
@[simp] theorem State.writeRC_rsp (s : State) (n : Nat) : (s.writeRC n).rsp = s.rsp := rfl
@[simp] theorem State.writeRC_work (s : State) (n : Nat) : (s.writeRC n).work = { s.work with rc := BitVec.ofNat 8 n } := rfl
@[simp] theorem State.writeRC_tables (s : State) (n : Nat) : (s.writeRC n).tables = s.tables := rfl
@[simp] theorem State.writeRC_script (s : State) (n : Nat) : (s.writeRC n).script = s.script := rfl
@[simp] theorem State.writeRC_offer (s : State) (n : Nat) : (s.writeRC n).offer = s.offer := rfl
@[simp] theorem State.writeRC_log (s : State) (n : Nat) : (s.writeRC n).log = s.log := rfl
@[simp] theorem State.writeRC_tick (s : State) (n : Nat) : (s.writeRC n).tick = s.tick := rfl

@[simp] theorem State.releaseHalves_cfg (s : State) : (s.releaseHalves).cfg = s.cfg := rfl
@[simp] theorem State.releaseHalves_phase (s : State) : (s.releaseHalves).phase = s.phase := rfl
@[simp] theorem State.releaseHalves_cyclesLeft (s : State) : (s.releaseHalves).cyclesLeft = s.cyclesLeft := rfl
@[simp] theorem State.releaseHalves_cur (s : State) : (s.releaseHalves).cur = s.cur := rfl
@[simp] theorem State.releaseHalves_rsp (s : State) : (s.releaseHalves).rsp = s.rsp := rfl
@[simp] theorem State.releaseHalves_work (s : State) : (s.releaseHalves).work = { s.work with l := Config.freeL s.tick, r := Config.freeR s.tick } := rfl
@[simp] theorem State.releaseHalves_tables (s : State) : (s.releaseHalves).tables = s.tables := rfl
@[simp] theorem State.releaseHalves_script (s : State) : (s.releaseHalves).script = s.script := rfl
@[simp] theorem State.releaseHalves_offer (s : State) : (s.releaseHalves).offer = s.offer := rfl
@[simp] theorem State.releaseHalves_log (s : State) : (s.releaseHalves).log = s.log := rfl
@[simp] theorem State.releaseHalves_tick (s : State) : (s.releaseHalves).tick = s.tick := rfl

@[simp] theorem State.releaseWork_cfg (s : State) : (s.releaseWork).cfg = s.cfg := rfl
@[simp] theorem State.releaseWork_phase (s : State) : (s.releaseWork).phase = s.phase := rfl
@[simp] theorem State.releaseWork_cyclesLeft (s : State) : (s.releaseWork).cyclesLeft = s.cyclesLeft := rfl
@[simp] theorem State.releaseWork_cur (s : State) : (s.releaseWork).cur = s.cur := rfl
@[simp] theorem State.releaseWork_rsp (s : State) : (s.releaseWork).rsp = s.rsp := rfl
@[simp] theorem State.releaseWork_work (s : State) : (s.releaseWork).work = { l := Config.freeL s.tick, r := Config.freeR s.tick, rc := BitVec.ofNat 8 (Config.freeRC s.tick).val } := rfl
@[simp] theorem State.releaseWork_tables (s : State) : (s.releaseWork).tables = s.tables := rfl
@[simp] theorem State.releaseWork_script (s : State) : (s.releaseWork).script = s.script := rfl
@[simp] theorem State.releaseWork_offer (s : State) : (s.releaseWork).offer = s.offer := rfl
@[simp] theorem State.releaseWork_log (s : State) : (s.releaseWork).log = s.log := rfl
@[simp] theorem State.releaseWork_tick (s : State) : (s.releaseWork).tick = s.tick := rfl

@[simp] theorem State.applyRound_cfg (s : State) (k : Key) : (s.applyRound k).cfg = s.cfg := rfl
@[simp] theorem State.applyRound_phase (s : State) (k : Key) : (s.applyRound k).phase = s.phase := rfl
@[simp] theorem State.applyRound_cyclesLeft (s : State) (k : Key) : (s.applyRound k).cyclesLeft = s.cyclesLeft := rfl
@[simp] theorem State.applyRound_cur (s : State) (k : Key) : (s.applyRound k).cur = s.cur := rfl
@[simp] theorem State.applyRound_rsp (s : State) (k : Key) : (s.applyRound k).rsp = s.rsp := rfl
@[simp] theorem State.applyRound_work (s : State) (k : Key) : (s.applyRound k).work = { s.work with l := (feistelRound s.tables (s.work.l, s.work.r) k).1, r := (feistelRound s.tables (s.work.l, s.work.r) k).2 } := rfl
@[simp] theorem State.applyRound_tables (s : State) (k : Key) : (s.applyRound k).tables = s.tables := rfl
@[simp] theorem State.applyRound_script (s : State) (k : Key) : (s.applyRound k).script = s.script := rfl
@[simp] theorem State.applyRound_offer (s : State) (k : Key) : (s.applyRound k).offer = s.offer := rfl
@[simp] theorem State.applyRound_log (s : State) (k : Key) : (s.applyRound k).log = s.log := rfl
@[simp] theorem State.applyRound_tick (s : State) (k : Key) : (s.applyRound k).tick = s.tick := rfl

@[simp] theorem State.doRound_cfg (s : State) (n : Nat) : (s.doRound n).cfg = s.cfg := rfl
@[simp] theorem State.doRound_phase (s : State) (n : Nat) : (s.doRound n).phase = s.phase := rfl
@[simp] theorem State.doRound_cyclesLeft (s : State) (n : Nat) : (s.doRound n).cyclesLeft = s.cyclesLeft := rfl
@[simp] theorem State.doRound_cur (s : State) (n : Nat) : (s.doRound n).cur = s.cur := rfl
@[simp] theorem State.doRound_rsp (s : State) (n : Nat) : (s.doRound n).rsp = s.rsp := rfl
@[simp] theorem State.doRound_work (s : State) (n : Nat) : (s.doRound n).work = { l := (feistelRound s.tables (s.work.l, s.work.r) (sk s.cfg.key n)).1, r := (feistelRound s.tables (s.work.l, s.work.r) (sk s.cfg.key n)).2, rc := BitVec.ofNat 8 n } := rfl
@[simp] theorem State.doRound_tables (s : State) (n : Nat) : (s.doRound n).tables = s.tables := rfl
@[simp] theorem State.doRound_script (s : State) (n : Nat) : (s.doRound n).script = s.script := rfl
@[simp] theorem State.doRound_offer (s : State) (n : Nat) : (s.doRound n).offer = s.offer := rfl
@[simp] theorem State.doRound_log (s : State) (n : Nat) : (s.doRound n).log = s.log := rfl
@[simp] theorem State.doRound_tick (s : State) (n : Nat) : (s.doRound n).tick = s.tick := rfl

@[simp] theorem State.advance_cfg (s : State) : (s.advance).cfg = s.cfg := rfl
@[simp] theorem State.advance_phase (s : State) : (s.advance).phase = s.phase := rfl
@[simp] theorem State.advance_cyclesLeft (s : State) : (s.advance).cyclesLeft = s.cyclesLeft := rfl
@[simp] theorem State.advance_cur (s : State) : (s.advance).cur = s.cur := rfl
@[simp] theorem State.advance_rsp (s : State) : (s.advance).rsp = s.rsp := rfl
@[simp] theorem State.advance_work (s : State) : (s.advance).work = s.work := rfl
@[simp] theorem State.advance_tables (s : State) : (s.advance).tables = s.tables := rfl
@[simp] theorem State.advance_script (s : State) : (s.advance).script = s.script.tail := rfl
@[simp] theorem State.advance_offer (s : State) : (s.advance).offer = s.offerAfter := rfl
@[simp] theorem State.advance_log (s : State) : (s.advance).log = s.log := rfl
@[simp] theorem State.advance_tick (s : State) : (s.advance).tick = s.tick + 1 := rfl

@[simp] theorem State.acceptWord_cfg (s : State) (n : Nat) (w : Word) : (s.acceptWord n w).cfg = s.cfg := rfl
@[simp] theorem State.acceptWord_phase (s : State) (n : Nat) (w : Word) : (s.acceptWord n w).phase = .busy := rfl
@[simp] theorem State.acceptWord_cyclesLeft (s : State) (n : Nat) (w : Word) : (s.acceptWord n w).cyclesLeft = n := rfl
@[simp] theorem State.acceptWord_cur (s : State) (n : Nat) (w : Word) : (s.acceptWord n w).cur = w := rfl
@[simp] theorem State.acceptWord_rsp (s : State) (n : Nat) (w : Word) : (s.acceptWord n w).rsp = s.rsp := rfl
@[simp] theorem State.acceptWord_work (s : State) (n : Nat) (w : Word) : (s.acceptWord n w).work = s.work := rfl
@[simp] theorem State.acceptWord_tables (s : State) (n : Nat) (w : Word) : (s.acceptWord n w).tables = s.tables := rfl
@[simp] theorem State.acceptWord_script (s : State) (n : Nat) (w : Word) : (s.acceptWord n w).script = s.script := rfl
@[simp] theorem State.acceptWord_offer (s : State) (n : Nat) (w : Word) : (s.acceptWord n w).offer = s.offer := rfl
@[simp] theorem State.acceptWord_log (s : State) (n : Nat) (w : Word) : (s.acceptWord n w).log = { s.log with accepted := s.log.accepted ++ [w] } := rfl
@[simp] theorem State.acceptWord_tick (s : State) (n : Nat) (w : Word) : (s.acceptWord n w).tick = s.tick := rfl

@[simp] theorem State.countDown_cfg (s : State) : (s.countDown).cfg = s.cfg := rfl
@[simp] theorem State.countDown_phase (s : State) : (s.countDown).phase = s.phase := rfl
@[simp] theorem State.countDown_cyclesLeft (s : State) : (s.countDown).cyclesLeft = s.cyclesLeft - 1 := rfl
@[simp] theorem State.countDown_cur (s : State) : (s.countDown).cur = s.cur := rfl
@[simp] theorem State.countDown_rsp (s : State) : (s.countDown).rsp = s.rsp := rfl
@[simp] theorem State.countDown_work (s : State) : (s.countDown).work = s.work := rfl
@[simp] theorem State.countDown_tables (s : State) : (s.countDown).tables = s.tables := rfl
@[simp] theorem State.countDown_script (s : State) : (s.countDown).script = s.script := rfl
@[simp] theorem State.countDown_offer (s : State) : (s.countDown).offer = s.offer := rfl
@[simp] theorem State.countDown_log (s : State) : (s.countDown).log = s.log := rfl
@[simp] theorem State.countDown_tick (s : State) : (s.countDown).tick = s.tick := rfl

@[simp] theorem State.takeResponse_cfg (s : State) : (s.takeResponse).cfg = s.cfg := rfl
@[simp] theorem State.takeResponse_phase (s : State) : (s.takeResponse).phase = .idle := rfl
@[simp] theorem State.takeResponse_cyclesLeft (s : State) : (s.takeResponse).cyclesLeft = s.cyclesLeft := rfl
@[simp] theorem State.takeResponse_cur (s : State) : (s.takeResponse).cur = s.cur := rfl
@[simp] theorem State.takeResponse_rsp (s : State) : (s.takeResponse).rsp = s.rsp := rfl
@[simp] theorem State.takeResponse_work (s : State) : (s.takeResponse).work = s.work := rfl
@[simp] theorem State.takeResponse_tables (s : State) : (s.takeResponse).tables = s.tables := rfl
@[simp] theorem State.takeResponse_script (s : State) : (s.takeResponse).script = s.script := rfl
@[simp] theorem State.takeResponse_offer (s : State) : (s.takeResponse).offer = s.offer := rfl
@[simp] theorem State.takeResponse_log (s : State) : (s.takeResponse).log = { s.log with taken := s.log.taken ++ [s.rsp] } := rfl
@[simp] theorem State.takeResponse_tick (s : State) : (s.takeResponse).tick = s.tick := rfl

@[simp] theorem State.applyReset_cfg (s : State) : (s.applyReset).cfg = s.cfg.cleared := rfl
@[simp] theorem State.applyReset_phase (s : State) : (s.applyReset).phase = .idle := rfl
@[simp] theorem State.applyReset_cyclesLeft (s : State) : (s.applyReset).cyclesLeft = s.cyclesLeft := rfl
@[simp] theorem State.applyReset_cur (s : State) : (s.applyReset).cur = s.cur := rfl
@[simp] theorem State.applyReset_rsp (s : State) : (s.applyReset).rsp = s.rsp := rfl
@[simp] theorem State.applyReset_work (s : State) : (s.applyReset).work = s.work := rfl
@[simp] theorem State.applyReset_tables (s : State) : (s.applyReset).tables = s.tables := rfl
@[simp] theorem State.applyReset_script (s : State) : (s.applyReset).script = s.script := rfl
@[simp] theorem State.applyReset_offer (s : State) : (s.applyReset).offer = s.offer := rfl
@[simp] theorem State.applyReset_log (s : State) : (s.applyReset).log = { accepted := [], taken := [] } := rfl
@[simp] theorem State.applyReset_tick (s : State) : (s.applyReset).tick = s.tick := rfl

end Sys2Proof.Machine
end

