-- ==== Sys2Proof/Laws/Rounds.lean ====
section
/-! SUPPORT. The round loops on the registers: what they leave alone, and what they leave in L and R. -/

namespace Sys2Proof.Machine

/-- What a round loop leaves alone: all but L, R and RC. -/
structure SameButWork (s t : State) : Prop where
  cfg : t.cfg = s.cfg
  phase : t.phase = s.phase
  cyclesLeft : t.cyclesLeft = s.cyclesLeft
  cur : t.cur = s.cur
  rsp : t.rsp = s.rsp
  tables : t.tables = s.tables
  script : t.script = s.script
  offer : t.offer = s.offer
  log : t.log = s.log
  tick : t.tick = s.tick

theorem SameButWork.rfl' (s : State) : SameButWork s s := ⟨rfl, rfl, rfl, rfl, rfl, rfl, rfl, rfl, rfl, rfl⟩

theorem SameButWork.doRound {s t : State} (h : SameButWork s t) (r : Nat) : SameButWork s (t.doRound r) :=
  ⟨h.cfg, h.phase, h.cyclesLeft, h.cur, h.rsp, h.tables, h.script, h.offer, h.log, h.tick⟩

/-- Loading a block changes L and R only. -/
theorem SameButWork.of_loadBlock {s t : State} {b : Block} (h : SameButWork (s.loadBlock b) t) : SameButWork s t :=
  ⟨h.cfg, h.phase, h.cyclesLeft, h.cur, h.rsp, h.tables, h.script, h.offer, h.log, h.tick⟩

/-- The ascending loop changes L, R and RC only. -/
theorem State.roundsUp_sameButWork (n : Nat) (s : State) : SameButWork s (State.roundsUp n s) := by
  induction n with
  | zero => exact .rfl' s
  | succ n ih => exact ih.doRound n

/-- The descending loop changes L, R and RC only. -/
theorem State.roundsDown_sameButWork (n : Nat) (s : State) : SameButWork s (State.roundsDown n s) := by
  suffices h : ∀ t, SameButWork s t → SameButWork s (State.roundsDown n t) from h s (.rfl' s)
  induction n with
  | zero => exact fun t h => h
  | succ n ih => exact fun t h => ih _ (h.doRound n)

/-- A state that is `s` but for the working registers is `s` with those registers replaced. -/
theorem SameButWork.eq_with {s t : State} (h : SameButWork s t) : t = { s with work := t.work } := by
  obtain ⟨h1, h2, h3, h4, h5, h6, h7, h8, h9, h10⟩ := h
  cases s; cases t; simp_all

/-- The ascending loop leaves in (L, R) what the loop on values gives (44_feistel_engine.md R180). -/
theorem State.roundsUp_halves (n : Nat) (s : State) :
    ((State.roundsUp n s).work.l, (State.roundsUp n s).work.r) =
      roundsAsc s.tables s.cfg.key n (s.work.l, s.work.r) := by
  induction n with
  | zero => rfl
  | succ n ih =>
    have h := State.roundsUp_sameButWork n s
    simp [State.roundsUp, roundsAsc, ← ih, h.tables, h.cfg]

/-- The descending loop leaves in (L, R) what the loop on values gives (44_feistel_engine.md R181). -/
theorem State.roundsDown_halves (n : Nat) (s : State) :
    ((State.roundsDown n s).work.l, (State.roundsDown n s).work.r) =
      roundsDesc s.tables s.cfg.key n (s.work.l, s.work.r) := by
  induction n generalizing s with
  | zero => rfl
  | succ n ih => simp [State.roundsDown, roundsDesc, ih]

/-- The halves of a joined block. -/
@[simp] theorem blockL_joinHalves (hi lo : Half) : blockL (joinHalves hi lo) = hi := by
  simp only [blockL, joinHalves]
  ext i h
  simp only [BitVec.getElem_extractLsb', BitVec.getLsbD_append]
  simp [BitVec.getLsbD_eq_getElem h]

@[simp] theorem blockR_joinHalves (hi lo : Half) : blockR (joinHalves hi lo) = lo := by
  simp only [blockR, joinHalves]
  ext i h
  simp only [BitVec.getElem_extractLsb', BitVec.getLsbD_append]
  simp [show i < 8 from h]

/-- A block is its two halves joined. -/
@[simp] theorem joinHalves_blocks (b : Block) : joinHalves (blockL b) (blockR b) = b := by
  simp only [blockL, blockR, joinHalves]
  ext i h
  simp only [BitVec.getElem_append, BitVec.getElem_extractLsb']
  split
  · simp [BitVec.getLsbD_eq_getElem h]
  · next h8 => simp [show 8 + (i - 8) = i by omega, BitVec.getLsbD_eq_getElem h]

end Sys2Proof.Machine
end

