-- ==== Sys2Proof/Laws/Step.lean ====
section
/-! SUPPORT. What a meaning and a step can do, said once: every meaning completes and changes only what its frame names;
a step is one of eight edges. -/

namespace Sys2Proof.Machine

/-- What every meaning leaves alone, and that it ends in RESP (40_control.md R101). -/
structure Completes (s t : State) : Prop where
  phase : t.phase = .resp
  cyclesLeft : t.cyclesLeft = s.cyclesLeft
  cur : t.cur = s.cur
  tables : t.tables = s.tables
  script : t.script = s.script
  offer : t.offer = s.offer
  log : t.log = s.log
  tick : t.tick = s.tick
  rc : t.work.rc = s.work.rc ∨ ∃ n : Fin 255, t.work.rc = BitVec.ofNat 8 n.val

/-- An error response changes RSP and PHASE only (60_exceptions.md R201). -/
theorem completes_raiseError (e : ErrCode) (s : State) : Completes s (s.raiseError e) :=
  ⟨rfl, rfl, rfl, rfl, rfl, rfl, rfl, rfl, .inl rfl⟩

/-- A response after work on the registers alone. -/
theorem completes_releaseWork {s t : State} (h : SameButWork s t) (d : BitVec 16) :
    Completes s (t.respond d).releaseWork :=
  ⟨rfl, h.cyclesLeft, h.cur, h.tables, h.script, h.offer, h.log, h.tick, .inr ⟨_, rfl⟩⟩

/-- The flag check: what the rest of a command completes, the checked command completes. -/
theorem completes_ifConfigured {k : State → Answer} {s : State} (h : ∃ t, k s = .next t ∧ Completes s t) :
    ∃ t, s.ifConfigured k = .next t ∧ Completes s t := by
  unfold State.ifConfigured
  split
  · exact h
  · exact ⟨_, rfl, completes_raiseError _ s⟩

/-- Every meaning answers a next state, in RESP, and leaves alone what no command writes. -/
theorem exec_completes (i : Instr) (s : State) : ∃ t, exec i s = .next t ∧ Completes s t := by
  cases i with
  | nop => exact ⟨_, rfl, rfl, rfl, rfl, rfl, rfl, rfl, rfl, rfl, .inl rfl⟩
  | cfg rounds key => exact ⟨_, rfl, rfl, rfl, rfl, rfl, rfl, rfl, rfl, rfl, .inl rfl⟩
  | enc b =>
    unfold exec execEnc
    exact completes_ifConfigured ⟨_, rfl, completes_releaseWork
      (SameButWork.of_loadBlock (State.roundsUp_sameButWork _ (s.loadBlock b))) _⟩
  | dec b =>
    unfold exec execDec
    exact completes_ifConfigured ⟨_, rfl, completes_releaseWork
      (SameButWork.of_loadBlock (State.roundsDown_sameButWork _ (s.loadBlock b))) _⟩
  | rnd k b => exact ⟨_, rfl, rfl, rfl, rfl, rfl, rfl, rfl, rfl, rfl, .inl rfl⟩
  | sbox x => exact ⟨_, rfl, rfl, rfl, rfl, rfl, rfl, rfl, rfl, rfl, .inl rfl⟩
  | exp h => exact ⟨_, rfl, rfl, rfl, rfl, rfl, rfl, rfl, rfl, rfl, .inl rfl⟩
  | skey j =>
    unfold exec execSkey
    refine completes_ifConfigured ?_
    cases s.cfg.subkey j.toNat with
    | none => exact ⟨_, rfl, completes_raiseError _ s⟩
    | some k => exact ⟨_, rfl, rfl, rfl, rfl, rfl, rfl, rfl, rfl, rfl, .inl rfl⟩

/-- The execution of the accepted word completes, whatever the word (40_control.md R103: errors are answers). -/
theorem completeWith_completes (s : State) : ∃ t, s.completeWith exec = .next t ∧ Completes s t := by
  unfold State.completeWith
  cases decode s.cur with
  | error e => exact ⟨_, rfl, completes_raiseError e s⟩
  | ok i => exact exec_completes i s

/-- The eight kinds of edge a step can be, each with its guard and its next state. -/
inductive Edge (extra : LatKey → Nat) (s : State) : State → Prop where
  | reset : s.pins.rst = true → Edge extra s s.advance.applyReset
  | accept : s.pins.rst = false → s.phase = .idle → s.pins.cmdValid = true →
      Edge extra s (s.advance.acceptWord (extra (latKey s.pins.cmdWord s.cfg) + 1) s.pins.cmdWord)
  | idle : s.pins.rst = false → s.phase = .idle → s.pins.cmdValid = false → Edge extra s s.advance
  | count : s.pins.rst = false → s.phase = .busy → 1 < s.cyclesLeft → Edge extra s s.advance.countDown
  | error (e : ErrCode) : s.pins.rst = false → s.phase = .busy → s.cyclesLeft ≤ 1 → decode s.cur = .error e →
      Edge extra s (s.advance.countDown.raiseError e)
  | command (i : Instr) (t : State) : s.pins.rst = false → s.phase = .busy → s.cyclesLeft ≤ 1 → decode s.cur = .ok i →
      exec i s.advance.countDown = .next t → Edge extra s t
  | take : s.pins.rst = false → s.phase = .resp → s.pins.rspReady = true → Edge extra s s.advance.takeResponse
  | hold : s.pins.rst = false → s.phase = .resp → s.pins.rspReady = false → Edge extra s s.advance

/-- A step that answers a next state is one of the eight edges, and no duty was broken. -/
theorem stepWith_cases {extra : LatKey → Nat} {s t : State} (h : stepWith extra s = .next t) :
    s.breaksReadDuty = false ∧ s.breaksOfferDuty = false ∧ Edge extra s t := by
  unfold stepWith State.clockEdge at h
  split at h
  · cases h
  · next hr =>
    split at h
    · cases h
    · next ho =>
      refine ⟨by simpa using hr, by simpa using ho, ?_⟩
      split at h
      · next hrst => cases h; exact .reset hrst
      · next hrst =>
        have hrst : s.pins.rst = false := by simpa using hrst
        unfold State.phaseEdge at h
        split at h
        · next hp =>
          split at h
          · next hv => cases h; exact .accept hrst hp hv
          · next hv => cases h; exact .idle hrst hp (by simpa using hv)
        · next hp =>
          split at h
          · next hc =>
            unfold State.completeWith at h
            split at h
            · next e he => cases h; exact .error e hrst hp hc he
            · next i hi => exact .command i t hrst hp hc hi h
          · next hc => cases h; exact .count hrst hp (by omega)
        · next hp =>
          split at h
          · next hv => cases h; exact .take hrst hp hv
          · next hv => cases h; exact .hold hrst hp (by simpa using hv)

/-- A step outside reset with no duty broken is the edge of its PHASE. -/
theorem stepWith_phaseEdge {extra : LatKey → Nat} {s : State} (hr : s.breaksReadDuty = false)
    (ho : s.breaksOfferDuty = false) (hrst : s.pins.rst = false) : stepWith extra s = s.phaseEdge extra exec := by
  simp [stepWith, State.clockEdge, hr, ho, hrst]

end Sys2Proof.Machine
end

