-- ==== Sys2Proof/Tests/Slice0.lean ====
section
/-! SUPPORT. Tests, each with its expected result from spec/95_test_vectors.md (the fixture tables of that file are a test
bench's, never the hardware's), and for every statement with hypotheses a witness that meets them. -/

namespace Sys2Proof.Tests

open Sys2Proof Sys2Proof.Machine

set_option maxRecDepth 20000

/-! ## The bench -/

/-- FIX1 and FIX2 of 95_test_vectors.md. -/
def fixtures : Tables :=
  Tables.ofCells (fun p q => BitVec.ofNat 4 (q.val + p.val)) (fun p q => BitVec.ofNat 4 (q.val ^^^ (4 * p.val)))

/-- C=0. -/
def blank : Cfg := { configured := false, key := 0, nrounds := 0 }

/-- C=1 with a key and a round count. -/
def keyed (key : Key) (n : BitVec 8) : Cfg := { configured := true, key := key, nrounds := n }

/-- An idle engine with the fixture tables. -/
def bench (c : Cfg) : State := { State.reset with cfg := c, tables := fixtures }

/-- The engine at the edge at which the accepted word executes. -/
def busyWith (c : Cfg) (w : Word) : State := { bench c with phase := .busy, cyclesLeft := 1, cur := w }

/-- The engine in RESP. -/
def respWith (w : RspWord) : State := { bench blank with phase := .resp, rsp := w }

/-- An edge's ports: `rst`, the offer, `rsp_ready`, and whether the host looks at `rsp_word`. -/
def portsOf (rst : Bool) (offer : Option Word) (ready looks : Bool) : PortIn :=
  { rst := rst, cmdValid := offer.isSome, cmdWord := offer.getD 0, rspReady := ready, readsRsp := looks }

/-- A state whose coming edge has these ports. -/
def under (e : PortIn) (s : State) : State := { s with script := [e] }

/-- RSP, the configuration and PHASE after a step. -/
def seen : Answer → Option (RspWord × Cfg × Phase)
  | .next t => some (t.rsp, t.cfg, t.phase)
  | .fault _ => none
  | .refused _ => none

/-- The response to a word in a configuration, with the fixture tables. -/
def respOf (c : Cfg) (w : Word) : Option (RspWord × Cfg × Phase) := seen (step ((bench c).withFetchWord 32 w.toNat))

/-- PHASE, the edges to go, CUR and what the host has taken, after a step. -/
def moved : Answer → Option (Phase × Nat × Word × List RspWord)
  | .next t => some (t.phase, t.cyclesLeft, t.cur, t.log.taken)
  | .fault _ => none
  | .refused _ => none

/-- Why a step stopped. -/
def stopped : Answer → Option Refusal
  | .next _ => none
  | .fault _ => none
  | .refused r => some r

theorem busy_completing (c : Cfg) (w : Word) : (busyWith c w).completing := ⟨rfl, Nat.le_refl 1, rfl, rfl, rfl⟩

/-! ## WellFormed: each check refuses a term that breaks it (30_encoding.md R86; I15, I16) -/

theorem test_wellFormed_cfg_key : (Source.cfg 4096 (some 6)).wellFormed = false := by decide
theorem test_wellFormed_cfg_rounds : (Source.cfg 0x0A5 (some 256)).wellFormed = false := by decide
theorem test_wellFormed_enc : (Source.enc 65536).wellFormed = false := by decide
theorem test_wellFormed_dec : (Source.dec 65536).wellFormed = false := by decide
theorem test_wellFormed_rnd_block : (Source.rnd 65536 0).wellFormed = false := by decide
theorem test_wellFormed_rnd_subkey : (Source.rnd 0 4096).wellFormed = false := by decide
theorem test_wellFormed_sbox : (Source.sbox 4096).wellFormed = false := by decide
theorem test_wellFormed_exp : (Source.exp 256).wellFormed = false := by decide
theorem test_wellFormed_skey : (Source.skey 256).wellFormed = false := by decide
theorem test_wellFormed_word : (Source.word 4294967296).wellFormed = false := by decide

/-- The largest operands that fit are well formed. -/
theorem test_wellFormed_largest :
    (Source.cfg 4095 (some 255)).wellFormed = true ∧ (Source.cfg 4095 none).wellFormed = true ∧
    (Source.enc 65535).wellFormed = true ∧ (Source.dec 65535).wellFormed = true ∧
    (Source.rnd 65535 4095).wellFormed = true ∧ (Source.sbox 4095).wellFormed = true ∧
    (Source.exp 255).wellFormed = true ∧ (Source.skey 255).wellFormed = true ∧
    (Source.word 4294967295).wellFormed = true ∧ Source.nop.wellFormed = true := by decide

/-! ## Decoding: words written out from the pattern strings of 30_encoding.md R72 -/

theorem test_decode_nop : decode 0b00000000000000000000000000000000 = .ok .nop := rfl
theorem test_decode_cfg : decode 0b00010000011000000000000010100101 = .ok (.cfg 6 0x0A5) := rfl
theorem test_decode_enc : decode 0b00100000000000000100000101000010 = .ok (.enc 0x4142) := rfl
theorem test_decode_dec : decode 0b00110000000000001100011101111100 = .ok (.dec 0xC77C) := rfl
theorem test_decode_rnd : decode 0b01000000101001010100000101000010 = .ok (.rnd 0x0A5 0x4142) := rfl
theorem test_decode_sbox : decode 0b01010000000000000000011010100011 = .ok (.sbox 0x6A3) := rfl
theorem test_decode_exp : decode 0b01100000000000000000000001000010 = .ok (.exp 0x42) := rfl
theorem test_decode_skey : decode 0b01110000000000000000000000000101 = .ok (.skey 5) := rfl

/-- V-D4 to V-D6: the opcode decides, before any reserved bit. -/
theorem test_decode_illegal :
    decode 0x80000000 = .error .illegalOpcode ∧ decode 0xFFFFFFFF = .error .illegalOpcode ∧
    decode 0x8FFFFFFF = .error .illegalOpcode := ⟨rfl, rfl, rfl⟩

/-- V-D2, V-D3, V-D7, V-K10, V-E24, V-E25, V-S16, V-D9, V-K18: reserved bits of the seven opcodes that have any. -/
theorem test_decode_reserved :
    decode 0x00000001 = .error .reservedField ∧ decode 0x0FFFFFFF = .error .reservedField ∧
    decode 0x1FFFFFFF = .error .reservedField ∧ decode 0x10101000 = .error .reservedField ∧
    decode 0x20014142 = .error .reservedField ∧ decode 0x28004142 = .error .reservedField ∧
    decode 0x30014142 = .error .reservedField ∧ decode 0x50001000 = .error .reservedField ∧
    decode 0x60000100 = .error .reservedField ∧ decode 0x70000101 = .error .reservedField :=
  ⟨rfl, rfl, rfl, rfl, rfl, rfl, rfl, rfl, rfl, rfl⟩

/-- V-D8, and that the host's reading of a word is the decoder's. -/
theorem test_decode_table_word :
    decodeTableWord 32 0x1FF00FFF = some (.cfg 255 0xFFF) ∧ decodeTableWord 32 0x80000000 = none ∧
    decodeTableWord 32 0x4FFF00FF = some (.rnd 0xFFF 0x00FF) := by decide

/-! ## Commands, one step each -/

/-- V-D1, in both configurations. -/
theorem test_nop : respOf blank 0x00000000 = some (0x00000, blank, .resp) := by decide

/-- V-K7 and V-D8. -/
theorem test_cfg : respOf blank 0x106000A5 = some (0x00000, keyed 0x0A5 6, .resp) ∧
    respOf blank 0x1FF00FFF = some (0x00000, keyed 0xFFF 255, .resp) := by decide

/-- V-K10: nothing is written. -/
theorem test_cfg_reserved : respOf blank 0x10101000 = some (0x20000, blank, .resp) := by decide

/-- V-E6 and V-E11: six rounds, and none. -/
theorem test_enc : respOf (keyed 0x0A5 6) 0x20004142 = some (0x0C77C, keyed 0x0A5 6, .resp) ∧
    respOf (keyed 0x0A5 0) 0x20004142 = some (0x04241, keyed 0x0A5 0, .resp) := by decide

/-- V-E22 and V-E25. -/
theorem test_enc_errors : respOf blank 0x20004142 = some (0x30000, blank, .resp) ∧
    respOf blank 0x28004142 = some (0x20000, blank, .resp) := by decide

/-- V-E20's last column: thirteen rounds, past the subkeys' period. -/
theorem test_dec : respOf (keyed 0xA5A 13) 0x30001234 = some (0x05AF3, keyed 0xA5A 13, .resp) := by decide

/-- V-E23. -/
theorem test_dec_unconfigured : respOf blank 0x30004142 = some (0x30000, blank, .resp) := by decide

/-- V-R1 and V-R4, without a configuration. -/
theorem test_rnd : respOf blank 0x40A54142 = some (0x042FA, blank, .resp) ∧
    respOf blank 0x45A51234 = some (0x034B3, blank, .resp) := by decide

/-- V-S1 and V-S11: every field of X different. -/
theorem test_sbox : respOf blank 0x500006A3 = some (0x000BB, blank, .resp) ∧
    respOf blank 0x50000123 = some (0x0004B, blank, .resp) := by decide

/-- V-X11 and V-X16, without a configuration. -/
theorem test_exp : respOf blank 0x60000041 = some (0x00423, blank, .resp) ∧
    respOf blank 0x600000F0 = some (0x00CCA, blank, .resp) := by decide

/-- V-X3 to V-X10: the eight single bits, which fix the whole permutation table. -/
theorem test_exp_single_bits :
    [0x01, 0x02, 0x04, 0x08, 0x10, 0x20, 0x40, 0x80].map expand =
      [0x021, 0x204, 0x010, 0x100, 0x800, 0x048, 0x402, 0x080] := by decide

/-- V-K12 and V-K14. -/
theorem test_skey : respOf (keyed 0x0A5 6) 0x70000005 = some (0x004A1, keyed 0x0A5 6, .resp) ∧
    respOf (keyed 0xA5A 13) 0x7000000C = some (0x00A5A, keyed 0xA5A 13, .resp) := by decide

/-- V-K13, V-K16 and V-K17. -/
theorem test_skey_errors : respOf (keyed 0x0A5 6) 0x70000006 = some (0x40000, keyed 0x0A5 6, .resp) ∧
    respOf (keyed 0x0A5 0) 0x70000000 = some (0x40000, keyed 0x0A5 0, .resp) ∧
    respOf blank 0x70000000 = some (0x30000, blank, .resp) := by decide

/-- V-D4: an illegal word completes with its error. -/
theorem test_illegal : respOf (keyed 0x0A5 6) 0x80000000 = some (0x10000, keyed 0x0A5 6, .resp) := by decide

/-! ## The handshake and reset, one edge each (the trace of 95_test_vectors.md section 2.7) -/

/-- Edge 5: `ENC` accepted, with LAT = 3. -/
theorem test_edge_accepts :
    moved (stepWith (fun _ => 2) (under (portsOf false (some 0x20004142) false false) (bench (keyed 0x0A5 6)))) =
      some (.busy, 3, 0x20004142, []) := by decide

/-- Edges 6 and 7: busy, also where the host offers or is ready. -/
theorem test_edge_busy :
    moved (stepWith (fun _ => 2) (under (portsOf false (some 0x30004142) true false)
      { busyWith (keyed 0x0A5 6) 0x20004142 with cyclesLeft := 3 })) = some (.busy, 2, 0x20004142, []) := by decide

/-- Edges 3 and 4: the response is held, then taken. -/
theorem test_edge_response :
    moved (stepWith (fun _ => 2) (under (portsOf false none false true) (respWith 0x0C77C))) = some (.resp, 0, 0, []) ∧
    moved (stepWith (fun _ => 2) (under (portsOf false none true true) (respWith 0x0C77C))) =
      some (.idle, 0, 0, [0x0C77C]) := by decide

/-- Edge 11: a reset while BUSY abandons the command, with no response, and clears CONFIGURED alone. -/
theorem test_edge_reset :
    seen (stepWith (fun _ => 2) (under (portsOf true (some 0x106000A5) true false) (busyWith (keyed 0x0A5 6) 0x30004142))) =
      some (0, { configured := false, key := 0x0A5, nrounds := 6 }, .idle) := by decide

/-- The two broken duties (I8, I10), and that an unchanged offer breaks none. -/
theorem test_edge_refusals :
    stopped (stepWith (fun _ => 2) (under (portsOf false none false true) (bench blank))) = some .hostReadInvalidRsp ∧
    stopped (stepWith (fun _ => 2) (under (portsOf false (some 1) false false) { respWith 0 with offer := some 2 })) =
      some .hostChangedCmdWord ∧
    stopped (stepWith (fun _ => 2) (under (portsOf false (some 2) false false) { respWith 0 with offer := some 2 })) =
      none := by decide

/-! ## Assembly (30_encoding.md R86, R87) -/

theorem test_assemble_program :
    assembleLines ["; boot".toList, "cfg 0x0A5 ; six rounds".toList, "".toList, "rnd 0x4142, 0x0A5".toList,
      ".word 0x80000000".toList] = .ok [0x106000A5, 0x40A54142, 0x80000000] := by rfl

theorem test_assemble_errors :
    assembleLine "skey 256".toList = .error .operandTooWide ∧ assembleLine "rnd 0x4142".toList = .error .operandCount ∧
    assembleLine "enc 0b102".toList = .error .badNumber ∧ assembleLine "inc 1".toList = .error .unknownMnemonic :=
  ⟨rfl, rfl, rfl, rfl⟩

/-! ## Witnesses: for each statement with hypotheses, values that meet them, at the boundaries of each clause -/

theorem witness_DecodedWordIsItsEncoding : decode 0x1FF00FFF = .ok (.cfg 255 0xFFF) := rfl

theorem witness_MatchAndMaskDecideTheCommand :
    decode 0x70000005 = .ok (.skey 5) ∧
    (0x70000005 : Word) &&& (Instr.skey 5).maskWord = (Instr.skey 5).matchWord ∧
    (0x70000005 : Word) &&& (Instr.skey 255).maskWord = (Instr.skey 255).matchWord := ⟨rfl, by decide, by decide⟩

theorem witness_EveryWordIsInOneClass :
    ((0x7FFFFFFF : Word).toNat / 2 ^ 28 < 8 ∧ (0x7FFFFFFF : Word) &&& rsvdMask (opcodeOf 0x7FFFFFFF) ≠ 0) ∧
    8 ≤ (0x80000000 : Word).toNat / 2 ^ 28 ∧
    ((0x700000FF : Word).toNat / 2 ^ 28 < 8 ∧ (0x700000FF : Word) &&& rsvdMask (opcodeOf 0x700000FF) = 0) ∧
    ((busyWith blank 0x80000000).completing ∧ decode (busyWith blank 0x80000000).cur = .error .illegalOpcode) ∧
    ((busyWith blank 0x7FFFFFFF).completing ∧ decode (busyWith blank 0x7FFFFFFF).cur = .error .reservedField) :=
  ⟨by decide, by decide, by decide, ⟨busy_completing _ _, rfl⟩, busy_completing _ _, rfl⟩

theorem witness_StepRunsDecodedCommand :
    (busyWith (keyed 0x0A5 6) 0x20004142).completing ∧
    decode (busyWith (keyed 0x0A5 6) 0x20004142).cur = .ok (.enc 0x4142) := ⟨busy_completing _ _, rfl⟩

theorem witness_FetchWordRunsNext : decode 0x700000FF = .ok (.skey 255) := rfl

theorem witness_NopAnswersZero :
    ((busyWith blank 0x00000000).completing ∧ opcodeOf (busyWith blank 0x00000000).cur = 0x0#4) ∧
    ((busyWith blank 0x08000000).completing ∧ opcodeOf (busyWith blank 0x08000000).cur = 0x0#4) :=
  ⟨⟨busy_completing _ _, by decide⟩, busy_completing _ _, by decide⟩

theorem witness_CfgWritesConfiguration :
    ((busyWith blank 0x1FF00FFF).completing ∧ opcodeOf (busyWith blank 0x1FF00FFF).cur = 0x1#4 ∧
      (busyWith blank 0x1FF00FFF).cur &&& 0x000FF000#32 = 0) ∧
    ((busyWith blank 0x10001000).completing ∧ opcodeOf (busyWith blank 0x10001000).cur = 0x1#4 ∧
      (busyWith blank 0x10001000).cur &&& 0x000FF000#32 ≠ 0) ∧
    ∃ t, exec (.cfg 255 0xFFF) (bench blank) = .next t :=
  ⟨⟨busy_completing _ _, by decide, by decide⟩, ⟨busy_completing _ _, by decide, by decide⟩, _, rfl⟩

theorem witness_EncAnswersCiphertext :
    (bench (keyed 0 0)).cfg.configured = true ∧ (bench (keyed 0xFFF 255)).cfg.configured = true ∧
    (bench blank).cfg.configured = false ∧
    ((busyWith blank 0x2000FFFF).completing ∧ opcodeOf (busyWith blank 0x2000FFFF).cur = 0x2#4) ∧
    ((busyWith blank 0x20010000).completing ∧ opcodeOf (busyWith blank 0x20010000).cur = 0x2#4) :=
  ⟨rfl, rfl, rfl, ⟨busy_completing _ _, by decide⟩, busy_completing _ _, by decide⟩

theorem witness_DecAnswersPlaintext :
    (bench (keyed 0 0)).cfg.configured = true ∧ (bench (keyed 0xFFF 255)).cfg.configured = true ∧
    (bench blank).cfg.configured = false ∧
    ((busyWith blank 0x3000FFFF).completing ∧ opcodeOf (busyWith blank 0x3000FFFF).cur = 0x3#4) ∧
    ((busyWith blank 0x30010000).completing ∧ opcodeOf (busyWith blank 0x30010000).cur = 0x3#4) :=
  ⟨rfl, rfl, rfl, ⟨busy_completing _ _, by decide⟩, busy_completing _ _, by decide⟩

theorem witness_RndAnswersOneRound :
    (busyWith blank 0x4FFFFFFF).completing ∧ opcodeOf (busyWith blank 0x4FFFFFFF).cur = 0x4#4 :=
  ⟨busy_completing _ _, by decide⟩

theorem witness_SboxAnswersSubstitution :
    ((busyWith blank 0x50000FFF).completing ∧ opcodeOf (busyWith blank 0x50000FFF).cur = 0x5#4) ∧
    ((busyWith blank 0x50001000).completing ∧ opcodeOf (busyWith blank 0x50001000).cur = 0x5#4) :=
  ⟨⟨busy_completing _ _, by decide⟩, busy_completing _ _, by decide⟩

theorem witness_ExpAnswersExpansion :
    ((busyWith blank 0x600000FF).completing ∧ opcodeOf (busyWith blank 0x600000FF).cur = 0x6#4) ∧
    ((busyWith blank 0x60000100).completing ∧ opcodeOf (busyWith blank 0x60000100).cur = 0x6#4) :=
  ⟨⟨busy_completing _ _, by decide⟩, busy_completing _ _, by decide⟩

theorem witness_SkeyAnswersSubkey :
    (bench blank).cfg.configured = false ∧
    ((bench (keyed 0x0A5 6)).cfg.configured = true ∧ (bench (keyed 0x0A5 6)).cfg.nrounds.toNat ≤ (6 : BitVec 8).toNat) ∧
    ((bench (keyed 0x0A5 6)).cfg.configured = true ∧ (5 : BitVec 8).toNat < (bench (keyed 0x0A5 6)).cfg.nrounds.toNat) ∧
    ((bench (keyed 0x0A5 255)).cfg.configured = true ∧
      (254 : BitVec 8).toNat < (bench (keyed 0x0A5 255)).cfg.nrounds.toNat) ∧
    ((busyWith blank 0x700000FF).completing ∧ opcodeOf (busyWith blank 0x700000FF).cur = 0x7#4) ∧
    ((busyWith blank 0x70000100).completing ∧ opcodeOf (busyWith blank 0x70000100).cur = 0x7#4) :=
  ⟨rfl, ⟨rfl, by decide⟩, ⟨rfl, by decide⟩, ⟨rfl, by decide⟩, ⟨busy_completing _ _, by decide⟩, busy_completing _ _,
    by decide⟩

theorem witness_ExpansionFollowsTheTable : (0 : Nat) < 12 ∧ (11 : Nat) < 12 := by decide

/-- The sequences of halves exist in both directions, for every number of rounds and every block. -/
theorem witness_CipherIsTheRoundLoop (n : Nat) (b : Block) :
    (∃ l r : Nat → Half, l 0 = b.extractLsb' 8 8 ∧ r 0 = b.extractLsb' 0 8 ∧
      ∀ i, i < n → l (i + 1) = r i ∧ r (i + 1) = l i ^^^ roundF fixtures (r i) (sk 0x0A5 i)) ∧
    (∃ l r : Nat → Half, l 0 = b.extractLsb' 8 8 ∧ r 0 = b.extractLsb' 0 8 ∧
      ∀ i, i < n → l (i + 1) = r i ∧ r (i + 1) = l i ^^^ roundF fixtures (r i) (sk 0x0A5 (n - 1 - i))) := by
  have walk (ks : Nat → Key) : ∃ l r : Nat → Half, l 0 = b.extractLsb' 8 8 ∧ r 0 = b.extractLsb' 0 8 ∧
      ∀ i, i < n → l (i + 1) = r i ∧ r (i + 1) = l i ^^^ roundF fixtures (r i) (ks i) :=
    let lr (i : Nat) : Half × Half := Nat.rec (blockL b, blockR b) (fun j p => feistelRound fixtures p (ks j)) i
    ⟨fun i => (lr i).1, fun i => (lr i).2, rfl, rfl, fun _ _ => ⟨rfl, rfl⟩⟩
  exact ⟨walk (sk 0x0A5), walk fun i => sk 0x0A5 (n - 1 - i)⟩

theorem witness_EncThenDecAnswersTheBlock :
    (bench (keyed 0 0)).cfg.configured = true ∧ (bench (keyed 0xFFF 255)).cfg.configured = true := ⟨rfl, rfl⟩

theorem witness_ZeroRoundsSwapTheHalves :
    (bench (keyed 0x0A5 0)).cfg.configured = true ∧ (bench (keyed 0x0A5 0)).cfg.nrounds = 0 := ⟨rfl, rfl⟩

theorem witness_OneRoundCipherIsRndSwapped :
    (bench (keyed 0x0A5 1)).cfg.configured = true ∧ (bench (keyed 0x0A5 1)).cfg.nrounds = 1 := ⟨rfl, rfl⟩

/-- Two states that differ in all but the configuration and the tables. -/
theorem witness_ResponseDependsOnConfigurationAlone :
    (bench (keyed 0x0A5 6)).cfg = (busyWith (keyed 0x0A5 6) 1).cfg ∧
    (bench (keyed 0x0A5 6)).tables = (busyWith (keyed 0x0A5 6) 1).tables ∧
    bench (keyed 0x0A5 6) ≠ busyWith (keyed 0x0A5 6) 1 :=
  ⟨rfl, rfl, fun h => by have := congrArg State.phase h; revert this; decide⟩

theorem witness_ErrorPriorityIsTheFirstThatApplies :
    (busyWith blank 0xFFFFFFFF).completing ∧ (busyWith blank 0x7FFFFFFF).completing ∧
    (busyWith blank 0x700000FF).completing ∧ (busyWith (keyed 0 255) 0x700000FF).completing ∧
    (busyWith (keyed 0 255) 0x700000FE).completing :=
  ⟨busy_completing _ _, busy_completing _ _, busy_completing _ _, busy_completing _ _, busy_completing _ _⟩

/-- One state for each of the four errors. -/
theorem witness_ErrorResponseWritesNothingElse :
    ∀ s ∈ [busyWith blank 0x80000000, busyWith blank 0x1FFFFFFF, busyWith blank 0x20004142,
      busyWith (keyed 0x0A5 6) 0x70000006],
      s.completing ∧ ∃ t, stepWith (fun _ => 0) s = .next t ∧ t.rsp.extractLsb' 16 4 ≠ 0 := by
  intro s hs
  simp only [List.mem_cons, List.not_mem_nil, or_false] at hs
  rcases hs with rfl | rfl | rfl | rfl <;> exact ⟨busy_completing _ _, _, rfl, by decide⟩

/-- Two words that complete; a step into BUSY and one within it. -/
theorem witness_CompletionIsExecOfTheWord :
    (busyWith (keyed 0x0A5 6) 0x3000C77C).completing ∧ (busyWith blank 0xFFFFFFFF).completing ∧
    (∃ t, stepWith (fun _ => 0) (under (portsOf false (some 7) false false) (bench blank)) = .next t ∧ t.phase = .busy) ∧
    (∃ t, stepWith (fun _ => 0) { busyWith blank 7 with cyclesLeft := 2 } = .next t ∧ t.phase = .busy) :=
  ⟨busy_completing _ _, busy_completing _ _, ⟨_, rfl, rfl⟩, _, rfl, rfl⟩

theorem witness_RepeatedCommandAnswersTheSame :
    (∃ t, exec (.skey 5) (bench (keyed 0x0A5 6)) = .next t) ∧ ∀ rounds key, Instr.skey 5 ≠ .cfg rounds key :=
  ⟨⟨_, rfl⟩, by intro _ _ h; cases h⟩

/-- IDLE, BUSY at its last edge and before it, RESP held and taken; and a reset edge. -/
theorem witness_PhaseFollowsTheHandshake :
    (∀ s ∈ [bench blank, busyWith blank 0, { busyWith blank 0 with cyclesLeft := 2 }, respWith 0,
        under (portsOf false none true true) (respWith 0)],
      s.pins.rst = false ∧ ∃ t, stepWith (fun _ => 0) s = .next t) ∧
    ∃ t, (under (portsOf true none false false) (bench blank)).pins.rst = true ∧
      stepWith (fun _ => 0) (under (portsOf true none false false) (bench blank)) = .next t := by
  refine ⟨fun s hs => ?_, _, rfl, rfl⟩
  simp only [List.mem_cons, List.not_mem_nil, or_false] at hs
  rcases hs with rfl | rfl | rfl | rfl | rfl <;> exact ⟨rfl, _, rfl⟩

theorem witness_AcceptanceAndTakingEdges :
    (∃ s : State, s.breaksReadDuty = false ∧ s.breaksOfferDuty = false ∧ s.accepts = true) ∧
    (∃ s : State, s.breaksReadDuty = false ∧ s.breaksOfferDuty = false ∧ s.takes = true) ∧
    ((respWith 0x0C77C).rspValid = true ∧ (respWith 0x0C77C).pins.rst = false) ∧ (busyWith blank 0).phase = .busy :=
  ⟨⟨under (portsOf false (some 0xFFFFFFFF) false false) (bench blank), rfl, by decide, rfl⟩,
    ⟨under (portsOf false none true true) (respWith 0x0C77C), rfl, rfl, rfl⟩, ⟨rfl, rfl⟩, rfl⟩

/-- IDLE with no offer, RESP with no taking, BUSY with two edges to go. -/
theorem witness_WaitingEdgesLeaveTheEngine :
    ∀ s ∈ [bench blank, respWith 0x0C77C, { busyWith blank 0 with cyclesLeft := 2 }],
      (∃ t, stepWith (fun _ => 0) s = .next t) ∧ s.pins.rst = false ∧ s.accepts = false ∧ s.takes = false ∧
        (s.phase ≠ .busy ∨ s.phase = .busy ∧ 1 < s.cyclesLeft) := by
  intro s hs
  simp only [List.mem_cons, List.not_mem_nil, or_false] at hs
  rcases hs with rfl | rfl | rfl <;> exact ⟨⟨_, rfl⟩, rfl, rfl, rfl, by decide⟩

theorem witness_ResetEdgeClearsPhaseAndConfigured :
    (∃ s : State, s.phase = .busy ∧ s.pins.rst = true ∧ s.pins.readsRsp = false) ∧
    ∃ s t : State, s.pins.rst = true ∧ s.pins.readsRsp = false ∧ stepWith (fun _ => 0) s = .next t ∧ t.pins.rst = false :=
  ⟨⟨under (portsOf true (some 1) true false) (busyWith blank 0), rfl, rfl, rfl⟩,
    under (portsOf true none false false) (bench (keyed 0x0A5 6)), _, rfl, rfl, rfl, rfl⟩

/-- A `CFG` abandoned while BUSY, and a response abandoned while the host is ready for it. -/
theorem witness_ResetAbandonsTheCommandInFlight :
    (under (portsOf true none false false) (busyWith blank 0x106000A5)).pins.rst = true ∧
    (under (portsOf true none false false) (busyWith blank 0x106000A5)).pins.readsRsp = false ∧
    (under (portsOf true none true false) (respWith 0x0C77C)).pins.rst = true ∧
    (under (portsOf true none true false) (respWith 0x0C77C)).pins.readsRsp = false ∧
    (under (portsOf true none true false) (respWith 0x0C77C)).phase = .resp := ⟨rfl, rfl, rfl, rfl, rfl⟩

/-- The last BUSY edge (j = extra) included. -/
theorem witness_ResponseComesAfterLatEdges :
    let e := portsOf false (some 0x20004142) false false
    let s := under e (bench (keyed 0x0A5 6))
    s.phase = .idle ∧ s.script = [e] ∧ e.rst = false ∧ e.cmdValid = true ∧ e.readsRsp = false ∧
      s.breaksOfferDuty = false ∧ 2 ≤ (fun _ => 2 : LatKey → Nat) (latKey e.cmdWord s.cfg) :=
  ⟨rfl, rfl, rfl, rfl, rfl, rfl, Nat.le_refl 2⟩

/-- Two `ENC` of different blocks under different keys, two `CFG` of different keys, and pairs of words of one class:
illegal, reserved, and commands. -/
theorem witness_LatencyIgnoresData :
    let s := under (portsOf false (some 0x20000000) false false) (bench (keyed 0x000 6))
    let t := under (portsOf false (some 0x2000FFFF) false false) (bench (keyed 0xFFF 6))
    ((Instr.enc 0).matchWord = (Instr.enc 0xFFFF).matchWord ∧ (∀ n k, Instr.enc 0 = .cfg n k → ∃ k', Instr.enc 0xFFFF = .cfg n k') ∧
      s.pins.cmdWord = encode (.enc 0) ∧ t.pins.cmdWord = encode (.enc 0xFFFF) ∧ s.accepts = true ∧ t.accepts = true ∧
      s.cfg.configured = t.cfg.configured ∧ s.cfg.nrounds = t.cfg.nrounds ∧
      (∃ u, stepWith (fun _ => 2) s = .next u) ∧ ∃ v, stepWith (fun _ => 2) t = .next v) ∧
    (∀ n k, Instr.cfg 255 0 = .cfg n k → ∃ k', Instr.cfg 255 0xFFF = .cfg n k') ∧
    (∀ x ∈ [(0x80000000, 0x8FFFFFFF), (0x10001000, 0x100FFFFF), (0x1FF00000, 0x1FF00FFF)],
      opcodeOf x.1 = opcodeOf x.2 ∧ (x.1 &&& rsvdMask (opcodeOf x.1) = 0 ↔ x.2 &&& rsvdMask (opcodeOf x.2) = 0) ∧
        (opcodeOf x.1 = 0x1#4 → x.1.extractLsb' 20 8 = x.2.extractLsb' 20 8) ∧
        (under (portsOf false (some x.1) false false) (bench blank)).pins.cmdWord = x.1 ∧
        (under (portsOf false (some x.2) false false) (bench blank)).accepts = true ∧
        ∃ u, stepWith (fun _ => 2) (under (portsOf false (some x.1) false false) (bench blank)) = .next u) :=
  ⟨⟨rfl, fun _ _ h => (by cases h), rfl, rfl, rfl, rfl, rfl, rfl, ⟨_, rfl⟩, _, rfl⟩, fun _ _ h => (by cases h; exact ⟨_, rfl⟩),
    fun x hx => by
      simp only [List.mem_cons, List.not_mem_nil, or_false] at hx
      rcases hx with rfl | rfl | rfl <;> exact ⟨by decide, by decide, by decide, rfl, rfl, _, rfl⟩⟩

/-- Either duty broken, both (the read is named), and neither. -/
theorem witness_StepStopsOnlyOnABrokenDuty :
    stopped (stepWith (fun _ => 0) (under (portsOf true none false true) (respWith 0))) = some .hostReadInvalidRsp ∧
    stopped (stepWith (fun _ => 0) (under (portsOf false (some 1) false true) { bench blank with offer := some 2 })) =
      some .hostReadInvalidRsp ∧
    stopped (stepWith (fun _ => 0) (under (portsOf false (some 1) false false) { bench blank with offer := some 2 })) =
      some .hostChangedCmdWord ∧
    stopped (stepWith (fun _ => 0) (under (portsOf true (some 1) false false) { bench blank with offer := some 2 })) =
      none := by decide

/-- An offer that waits, one that is accepted, and one in a reset cycle. -/
theorem witness_UnacceptedOfferIsRemembered :
    (∃ t, stepWith (fun _ => 0) (under (portsOf false (some 7) false false) (respWith 0)) = .next t ∧ t.offer = some 7) ∧
    (∃ t, stepWith (fun _ => 0) (under (portsOf false (some 7) false false) (bench blank)) = .next t ∧ t.offer = none) ∧
    (∃ t, stepWith (fun _ => 0) (under (portsOf true (some 7) false false) (respWith 0)) = .next t ∧ t.offer = none) :=
  ⟨⟨_, rfl, rfl⟩, ⟨_, rfl, rfl⟩, _, rfl, rfl⟩

/-- CONFIGURED set by a `CFG`, cleared by a reset, kept by another edge; and an unconfigured engine. -/
theorem witness_ConfiguredIsSetByCfgAndClearedByReset :
    (∃ t, stepWith (fun _ => 0) (busyWith blank 0x100000A5) = .next t ∧
      (busyWith blank 0x100000A5).cfg.configured = false ∧ t.cfg.configured = true) ∧
    (∃ t, stepWith (fun _ => 0) (under (portsOf true none false false) (bench (keyed 0x0A5 6))) = .next t ∧
      (bench (keyed 0x0A5 6)).cfg.configured = true ∧ t.cfg.configured = false) ∧
    (∃ t, stepWith (fun _ => 0) (bench (keyed 0x0A5 6)) = .next t ∧ t.cfg.configured = true) ∧
    (bench blank).cfg.configured = false ∧ (∃ b, Instr.enc 0 = .enc b ∨ Instr.enc 0 = .dec b) ∧
    (∃ b, Instr.dec 0 = .enc b ∨ Instr.dec 0 = .dec b) ∧ ∃ j, Instr.skey 255 = .skey j :=
  ⟨⟨_, rfl, rfl, rfl⟩, ⟨_, rfl, rfl, rfl⟩, ⟨_, rfl, rfl⟩, rfl, ⟨0, .inl rfl⟩, ⟨0, .inr rfl⟩, 255, rfl⟩

/-- KEY alone changed, and NROUNDS alone. -/
theorem witness_KeyAndRoundsAreWrittenByCfgOnly :
    (∃ t, stepWith (fun _ => 0) (busyWith (keyed 0x0A5 6) 0x106005A5) = .next t ∧ t.cfg.key ≠ 0x0A5) ∧
    (∃ t, stepWith (fun _ => 0) (busyWith (keyed 0x0A5 6) 0x100000A5) = .next t ∧ t.cfg.nrounds ≠ 6) :=
  ⟨⟨_, rfl, by decide⟩, _, rfl, by decide⟩

theorem witness_TablesAreNeverWritten :
    ∃ t, stepWith (fun _ => 0) (busyWith (keyed 0x0A5 6) 0x20004142) = .next t := ⟨_, rfl⟩

/-- A state on a run, with one word accepted and in flight. -/
def inFlight (w : Word) : State := { busyWith (keyed 0x0A5 6) w with log := { accepted := [w], taken := [] } }

theorem witness_EveryStepKeepsTheInvariant :
    (inFlight 0x20004142).Inv ∧ ∃ t, stepWith (fun _ => 0) (inFlight 0x20004142) = .next t :=
  ⟨⟨fun _ => Nat.le_refl 1, Nat.zero_le _, fun h => (by cases h), fun _ h => (by cases h), rfl⟩, _, rfl⟩

/-- A run in flight that steps on, and one that has ended with `ENC` answered (V-E6). -/
theorem witness_EveryRunIsTheFoldOfExec :
    ((inFlight 0x20004142).OnRunFrom (keyed 0x0A5 6) ∧
      (∃ t, stepWith (fun _ => 0) (inFlight 0x20004142) = .next t) ∧ (inFlight 0x20004142).pins.rst = false) ∧
    let s := { bench (keyed 0x0A5 6) with log := { accepted := [0x20004142], taken := [0x0C77C] } }
    s.OnRunFrom (keyed 0x0A5 6) ∧ s.ended :=
  ⟨⟨⟨rfl, fun _ => rfl⟩, ⟨_, rfl⟩, rfl⟩, ⟨by decide, fun h => (by cases h)⟩, rfl⟩

theorem witness_ResetStartsARun :
    ∃ t, stepWith (fun _ => 0) (under (portsOf true none false false) (inFlight 0x20004142)) = .next t ∧
      (under (portsOf true none false false) (inFlight 0x20004142)).pins.rst = true := ⟨_, rfl, rfl⟩

theorem witness_EveryCommandListRunsToItsEnd : State.reset.phase = .idle ∧ State.reset.offer = none := ⟨rfl, rfl⟩

/-- Different states with one architectural view: KEY while CONFIGURED = 0, CUR and L outside BUSY. -/
theorem witness_StepReadsArchitecturalStateOnly :
    let s := bench blank
    let t := { bench { blank with key := 0xFFF } with cur := 5, rsp := 6, work := { l := 7, r := 8, rc := 9 }, tick := 3 }
    s.arch = t.arch ∧ s.cfg.key ≠ t.cfg.key ∧ s.cur ≠ t.cur ∧ s.rsp ≠ t.rsp ∧ s.work ≠ t.work ∧ s.tick ≠ t.tick ∧
      (respWith 7).arch = { respWith 7 with cur := 5, tick := 3 }.arch ∧ (respWith 7).rspValid = true :=
  ⟨rfl, by decide, by decide, by decide, by decide, by decide, rfl, rfl⟩

/-- Two engines of one configuration in different phases. -/
def pair : Platform :=
  { tables := fixtures, engines := [bench (keyed 0x0A5 6), { respWith 0x0C77C with cfg := keyed 0x0A5 6 }] }

theorem witness_EnginesShareNothing : ∃ q, pair.stepAt 1 = some q ∧ (0 : Nat) ≠ 1 := ⟨_, rfl, by decide⟩

theorem witness_EnginesConfiguredAlikeAgree :
    ∃ s t, pair.engine 0 = some s ∧ pair.engine 1 = some t ∧ s.cfg.configured = true ∧ t.cfg.configured = true ∧
      s.cfg.key = t.cfg.key ∧ s.cfg.nrounds = t.cfg.nrounds ∧ s.phase ≠ t.phase :=
  ⟨_, _, rfl, rfl, rfl, rfl, rfl, rfl, by decide⟩

/-- Each command at its largest operands. -/
theorem witness_AssemblingNeverTruncates :
    assembleSource .nop = .ok 0x00000000 ∧
    assembleSource (.cfg 0xFFF (some 255)) = .ok 0x1FF00FFF ∧ assembleSource (.cfg 0xFFF none) = .ok 0x10600FFF ∧
    assembleSource (.enc 0xFFFF) = .ok 0x2000FFFF ∧ assembleSource (.dec 0xFFFF) = .ok 0x3000FFFF ∧
    assembleSource (.rnd 0xFFFF 0xFFF) = .ok 0x4FFFFFFF ∧ assembleSource (.sbox 0xFFF) = .ok 0x50000FFF ∧
    assembleSource (.exp 0xFF) = .ok 0x600000FF ∧ assembleSource (.skey 0xFF) = .ok 0x700000FF ∧
    ∀ v, Source.skey 0xFF ≠ .word v :=
  ⟨rfl, rfl, rfl, rfl, rfl, rfl, rfl, rfl, rfl, by intro _ h; cases h⟩

end Sys2Proof.Tests
end

section
/-! PROOFS. The bit-string of a vector: its length, its characters, and what `chars` and `parseBase2` make of
concatenation, of appending one bit and of XOR (00_scope.md R8, R10, R13). -/

namespace Sys2Proof.Machine

@[simp] theorem chars_length {w : Nat} (v : BitVec w) : (chars v).length = w := by
  simp [chars]

/-- R8: characters are numbered from the most significant bit, as `getMsbD` numbers bits. -/
@[simp] theorem chars_getElem {w : Nat} (v : BitVec w) (i : Nat) (h : i < (chars v).length) :
    (chars v)[i] = v.getMsbD i := by
  have hi : i < w := by simpa using h
  simp [chars, BitVec.getMsbD_eq_getLsbD, hi]

/-- R10: the left operand's characters come first. -/
theorem chars_append {m n : Nat} (a : BitVec m) (b : BitVec n) : chars (a ++ b) = chars a ++ chars b := by
  refine List.ext_getElem (by simp) fun i _ _ => ?_
  rw [chars_getElem, BitVec.getMsbD_append, List.getElem_append]
  by_cases hi : i < m
  · simp [hi, Nat.not_le.mpr hi]
  · simp [hi, Nat.le_of_not_lt hi]

@[simp] theorem chars_ofBool (b : Bool) : chars (BitVec.ofBool b) = [b] := by
  simp [chars]

@[simp] theorem chars_concat {w : Nat} (v : BitVec w) (b : Bool) : chars (v.concat b) = chars v ++ [b] := by
  rw [← BitVec.append_ofBool, chars_append, chars_ofBool]

@[simp] theorem parseBase2_append_singleton (s : List Bool) (b : Bool) :
    parseBase2 (s ++ [b]) = 2 * parseBase2 s + b.toNat := by
  simp [parseBase2]

/-- R13: parsing in base 2 inverts writing as characters; by induction on the vector, least significant bit last. -/
@[simp] theorem parseBase2_chars {w : Nat} (v : BitVec w) : parseBase2 (chars v) = v.toNat := by
  induction v using BitVec.concat_induction with
  | nil => rfl
  | concat v b ih => rw [chars_concat, parseBase2_append_singleton, ih, BitVec.toNat_concat, Nat.mul_comm]

/-- R13: the source's XOR of the parsed integers is the vector XOR, which keeps the target width. -/
theorem parseBase2_chars_xor {w : Nat} (a b : BitVec w) :
    parseBase2 (chars (a ^^^ b)) = parseBase2 (chars a) ^^^ parseBase2 (chars b) := by
  simp only [parseBase2_chars, BitVec.toNat_xor]

/-- Settles O18: `chars` is a homomorphism for concatenation that base-2 parsing inverts, so XOR is read off `toNat`. -/
theorem bitStringsAreVectors : Obligations.BitStringsAreVectors :=
  ⟨fun _ _ => chars_append, fun _ => parseBase2_chars, fun _ a b => ⟨chars_length _, parseBase2_chars_xor a b⟩⟩

end Sys2Proof.Machine
end

section
/-! PROOFS. Each meaning answers what the transaction level says (40_control.md R101): `exec` on states against
`performChecked` on values, and the completion of an accepted word against `transact`. -/

namespace Sys2Proof.Machine

/-- The subkey of 42_key_schedule.md R141 is the key rotated `i` places, as `perform` writes it. -/
theorem sk_eq_rotl12By (key : Key) (i : Nat) : sk key i = rotl12By key i := by
  induction i with
  | zero => rfl
  | succ i ih => simp only [sk, rotl12By, ih]

theorem Cfg.subkey_of_lt {c : Cfg} {i : Nat} (h : i < c.nrounds.toNat) : c.subkey i = some (rotl12By c.key i) := by
  simp [Cfg.subkey, h, sk_eq_rotl12By]

theorem Cfg.subkey_of_le {c : Cfg} {i : Nat} (h : c.nrounds.toNat ≤ i) : c.subkey i = none := by
  simp [Cfg.subkey, Nat.not_lt.2 h]

theorem State.ifConfigured_of_configured {s : State} (h : s.cfg.configured = true) (k : State → Answer) :
    s.ifConfigured k = k s := by
  simp [State.ifConfigured, h]

/-- A command that needs a configuration answers NOT_CONFIGURED where there is none (60_exceptions.md R203). -/
theorem State.ifConfigured_of_unconfigured {s : State} (h : s.cfg.configured = false) (k : State → Answer) :
    s.ifConfigured k = .next (s.raiseError .notConfigured) := by
  simp [State.ifConfigured, h]

/-- The block the ascending loop leaves is the ciphertext (44_feistel_engine.md R180). -/
theorem State.roundsUp_finalBlock (s : State) (n : Nat) (b : Block) :
    (State.roundsUp n (s.loadBlock b)).finalBlock = encrypt s.tables s.cfg.key n b := by
  have h := State.roundsUp_halves n (s.loadBlock b)
  simp only [State.loadBlock_tables, State.loadBlock_cfg, State.loadBlock_work] at h
  simp only [State.finalBlock, encrypt, ← h]

/-- The block the descending loop leaves is the plaintext (44_feistel_engine.md R181). -/
theorem State.roundsDown_finalBlock (s : State) (n : Nat) (b : Block) :
    (State.roundsDown n (s.loadBlock b)).finalBlock = decrypt s.tables s.cfg.key n b := by
  have h := State.roundsDown_halves n (s.loadBlock b)
  simp only [State.loadBlock_tables, State.loadBlock_cfg, State.loadBlock_work] at h
  simp only [State.finalBlock, decrypt, ← h]

/-- `ENC`, `DEC` and `SKEY`: the commands that check CONFIGURED (10_state.md R23). -/
def NeedsConfig (i : Instr) : Prop := (∃ b, i = .enc b ∨ i = .dec b) ∨ ∃ j, i = .skey j

/-- The commands that check CONFIGURED raise NOT_CONFIGURED while it is 0 (10_state.md R23). -/
theorem exec_of_unconfigured {s : State} {i : Instr} (h : s.cfg.configured = false) (hi : NeedsConfig i) :
    exec i s = .next (s.raiseError .notConfigured) := by
  obtain ⟨b, rfl | rfl⟩ | ⟨j, rfl⟩ := hi <;>
    simp only [exec, execEnc, execDec, execSkey, State.ifConfigured_of_unconfigured h]

theorem performChecked_of_unconfigured {t : Tables} {c : Cfg} {i : Instr} (h : c.configured = false)
    (hi : NeedsConfig i) : performChecked t c i = (c, errorWord .notConfigured) := by
  obtain ⟨b, rfl | rfl⟩ | ⟨j, rfl⟩ := hi <;> simp [performChecked, precheck, h]

theorem exec_answers_of_unconfigured {s : State} {i : Instr} (h : s.cfg.configured = false) (hi : NeedsConfig i) :
    ∃ t, exec i s = .next t ∧ (t.cfg, t.rsp) = performChecked s.tables s.cfg i :=
  ⟨_, exec_of_unconfigured h hi, (performChecked_of_unconfigured h hi).symm⟩

theorem execEnc_answers (b : Block) (s : State) :
    ∃ t, execEnc b s = .next t ∧ (t.cfg, t.rsp) = performChecked s.tables s.cfg (.enc b) := by
  cases h : s.cfg.configured with
  | false => exact exec_answers_of_unconfigured h (.inl ⟨b, .inl rfl⟩)
  | true =>
    refine ⟨_, State.ifConfigured_of_configured h _, ?_⟩
    have hc := (State.roundsUp_sameButWork s.cfg.nrounds.toNat (s.loadBlock b)).cfg
    simp [performChecked, precheck, perform, h, hc, State.roundsUp_finalBlock]

theorem execDec_answers (b : Block) (s : State) :
    ∃ t, execDec b s = .next t ∧ (t.cfg, t.rsp) = performChecked s.tables s.cfg (.dec b) := by
  cases h : s.cfg.configured with
  | false => exact exec_answers_of_unconfigured h (.inl ⟨b, .inr rfl⟩)
  | true =>
    refine ⟨_, State.ifConfigured_of_configured h _, ?_⟩
    have hc := (State.roundsDown_sameButWork s.cfg.nrounds.toNat (s.loadBlock b)).cfg
    simp [performChecked, precheck, perform, h, hc, State.roundsDown_finalBlock]

theorem execSkey_answers (j : BitVec 8) (s : State) :
    ∃ t, execSkey j s = .next t ∧ (t.cfg, t.rsp) = performChecked s.tables s.cfg (.skey j) := by
  cases h : s.cfg.configured with
  | false => exact exec_answers_of_unconfigured h (.inr ⟨j, rfl⟩)
  | true =>
    rw [execSkey, State.ifConfigured_of_configured h]
    by_cases hj : s.cfg.nrounds ≤ j
    · rw [Cfg.subkey_of_le (BitVec.le_def.1 hj)]
      exact ⟨_, rfl, by simp [performChecked, precheck, h, hj]⟩
    · rw [Cfg.subkey_of_lt (Nat.not_le.1 (mt BitVec.le_def.2 hj))]
      exact ⟨_, rfl, by simp [performChecked, precheck, perform, h, hj]⟩

/-- Every meaning leaves in the configuration and in RSP the two parts of the command's transaction
(40_control.md R101). -/
theorem exec_answers (i : Instr) (s : State) :
    ∃ t, exec i s = .next t ∧ (t.cfg, t.rsp) = performChecked s.tables s.cfg i := by
  cases i with
  | nop => exact ⟨_, rfl, rfl⟩
  | cfg rounds key => exact ⟨_, rfl, rfl⟩
  | enc b => exact execEnc_answers b s
  | dec b => exact execDec_answers b s
  | rnd k b => exact ⟨_, rfl, rfl⟩
  | sbox x => exact ⟨_, rfl, rfl⟩
  | exp h => exact ⟨_, rfl, rfl⟩
  | skey j => exact execSkey_answers j s

/-- What `exec` answered, said whole: its frame, and the transaction in the configuration and RSP. -/
theorem exec_next {i : Instr} {s t : State} (h : exec i s = .next t) :
    Completes s t ∧ (t.cfg, t.rsp) = performChecked s.tables s.cfg i := by
  obtain ⟨u, hu, hframe⟩ := exec_completes i s
  obtain ⟨v, hv, hval⟩ := exec_answers i s
  obtain rfl : u = t := Host.Outcome.next.inj (hu.symm.trans h)
  obtain rfl : v = u := Host.Outcome.next.inj (hv.symm.trans h)
  exact ⟨hframe, hval⟩

/-- Completing the accepted word is its transaction, for every word (40_control.md R101). -/
theorem completeWith_answers (s : State) :
    ∃ t, s.completeWith exec = .next t ∧ Completes s t ∧ (t.cfg, t.rsp) = transact s.tables s.cfg s.cur := by
  unfold State.completeWith transact
  cases decode s.cur with
  | error e => exact ⟨_, rfl, completes_raiseError e s, rfl⟩
  | ok i =>
    obtain ⟨t, ht, -⟩ := exec_completes i s
    exact ⟨t, ht, exec_next ht⟩

/-- A command's transaction leaves the configuration, but for `CFG`, which writes it and answers 0
(10_state.md R23, R25, R26). -/
theorem performChecked_cfg (t : Tables) (c : Cfg) (i : Instr) :
    (performChecked t c i).1 = c ∨
      ∃ rounds key, i = .cfg rounds key ∧ performChecked t c i = (configuredWith key rounds, rspOf 0 0) := by
  unfold performChecked
  cases precheck c i with
  | some e => exact .inl rfl
  | none =>
    cases i with
    | cfg rounds key => exact .inr ⟨rounds, key, rfl, rfl⟩
    | nop | enc b | dec b | rnd k b | sbox x | exp h | skey j => exact .inl rfl

/-- An error response is a legal one (30_encoding.md R81, 60_exceptions.md R202). -/
theorem legalResponse_errorWord (e : ErrCode) : legalResponse (errorWord e) = true := by
  cases e <;> decide

/-- A response with error code 0 is legal, whatever its DATA (30_encoding.md R81). -/
theorem legalResponse_success (d : BitVec 16) : legalResponse (rspOf 0 d) = true := by
  have herr : (rspOf 0 d).extractLsb' 16 4 = 0#4 := by
    rw [rspOf, Laws.extract_append_high _ _ _ _ (Nat.le_refl 16), Nat.sub_self, Laws.extract_whole]; rfl
  rw [legalResponse, herr]
  rfl

/-- Every transaction's response is legal (60_exceptions.md R202). -/
theorem legalResponse_performChecked (t : Tables) (c : Cfg) (i : Instr) :
    legalResponse (performChecked t c i).2 = true := by
  unfold performChecked
  cases precheck c i with
  | some e => exact legalResponse_errorWord e
  | none => exact legalResponse_success _

/-- Every meaning's response is legal. -/
theorem legalResponse_exec {i : Instr} {s t : State} (h : exec i s = .next t) : legalResponse t.rsp = true := by
  have hrsp : t.rsp = (performChecked s.tables s.cfg i).2 := congrArg Prod.snd (exec_next h).2
  exact hrsp ▸ legalResponse_performChecked s.tables s.cfg i

end Sys2Proof.Machine
end

section
/-! PROOFS. What an edge does to PHASE and to the configuration registers (10_state.md R23 to R27): the handshake, who
writes CONFIGURED, KEY and NROUNDS, and the state after reset. -/

namespace Sys2Proof.Machine

theorem State.cmdReady_iff (s : State) : s.cmdReady = true ↔ s.pins.rst = false ∧ s.phase = .idle := by
  simp [State.cmdReady]

theorem State.rspValid_iff (s : State) : s.rspValid = true ↔ s.pins.rst = false ∧ s.phase = .resp := by
  simp [State.rspValid]

/-- A word completes outside reset only. -/
theorem State.completing.rst_eq {s : State} (h : s.completing) : s.pins.rst = false := by
  obtain ⟨-, -, hrst, -, -⟩ := h
  exact hrst

section Edge

variable {extra : LatKey → Nat} {s t : State}

/-- A reset edge is the only edge with `rst = 1` (70_reset_and_hazards.md R230). -/
theorem Edge.eq_of_rst (h : Edge extra s t) (hrst : s.pins.rst = true) : t = s.advance.applyReset := by
  cases h with
  | reset => rfl
  | accept h0 | idle h0 | count h0 | error _ h0 | command _ _ h0 | take h0 | hold h0 => simp [hrst] at h0

/-- An accepted word takes IDLE to BUSY, and nothing else leaves IDLE (10_state.md R27). -/
theorem Edge.phase_of_idle (h : Edge extra s t) (hrst : s.pins.rst = false) (hp : s.phase = .idle) :
    t.phase = if s.pins.cmdValid = true then .busy else .idle := by
  cases h with
  | reset h1 => simp [hrst] at h1
  | accept _ _ hv => simp [hv]
  | idle _ _ hv => simp [hv, hp]
  | count _ hb | error _ _ hb | command _ _ _ hb | take _ hb | hold _ hb => simp [hp] at hb

/-- The last edge of the latency takes BUSY to RESP, and nothing else leaves BUSY (10_state.md R27). -/
theorem Edge.phase_of_busy (h : Edge extra s t) (hrst : s.pins.rst = false) (hp : s.phase = .busy) :
    t.phase = if s.cyclesLeft ≤ 1 then .resp else .busy := by
  cases h with
  | reset h1 => simp [hrst] at h1
  | count _ _ hc => simp [hp, Nat.not_le.2 hc]
  | error _ _ _ hc => simp [hc]
  | command i _ _ _ hc _ hx => simpa [hc] using (exec_next hx).1.phase
  | accept _ hb | idle _ hb | take _ hb | hold _ hb => simp [hp] at hb

/-- Taking the response takes RESP to IDLE, and nothing else leaves RESP (10_state.md R27). -/
theorem Edge.phase_of_resp (h : Edge extra s t) (hrst : s.pins.rst = false) (hp : s.phase = .resp) :
    t.phase = if s.pins.rspReady = true then .idle else .resp := by
  cases h with
  | reset h1 => simp [hrst] at h1
  | take _ _ hv => simp [hv]
  | hold _ _ hv => simp [hv, hp]
  | accept _ hb | idle _ hb | count _ hb | error _ _ hb | command _ _ _ hb => simp [hp] at hb

/-- What a step does to the configuration: a reset clears CONFIGURED, a completing `CFG` writes all of it and answers 0,
and no other edge writes any of it (10_state.md R23, R25, R26). -/
theorem stepWith_cfg (h : stepWith extra s = .next t) :
    (s.pins.rst = true ∧ t.cfg = s.cfg.cleared) ∨
    (s.pins.rst = false ∧ t.cfg = s.cfg) ∨
    (s.completing ∧ t.rsp = rspOf 0 0 ∧
      ∃ rounds key, decode s.cur = .ok (.cfg rounds key) ∧ t.cfg = configuredWith key rounds) := by
  obtain ⟨hread, hoffer, hedge⟩ := stepWith_cases h
  cases hedge with
  | reset hrst => exact .inl ⟨hrst, rfl⟩
  | accept hrst | idle hrst | count hrst | error _ hrst | take hrst | hold hrst => exact .inr (.inl ⟨hrst, rfl⟩)
  | command i _ hrst hp hc hd hx =>
    have hval := (exec_next hx).2
    obtain hsame | ⟨rounds, key, rfl, hcfg⟩ := performChecked_cfg s.tables s.cfg i
    · exact .inr (.inl ⟨hrst, (congrArg Prod.fst hval).trans hsame⟩)
    · obtain ⟨hcfg, hrsp⟩ := Prod.mk.inj (hval.trans hcfg)
      exact .inr (.inr ⟨⟨hp, hc, hrst, hread, hoffer⟩, hrsp, rounds, key, hd, hcfg⟩)

end Edge

/-- Settles O34, from what each kind of edge does to PHASE. -/
theorem phaseFollowsTheHandshake : Obligations.PhaseFollowsTheHandshake := by
  refine ⟨fun s => ⟨s.cmdReady_iff, s.rspValid_iff⟩, fun extra s t h hrst => ?_, fun extra s t h hrst => ?_⟩ <;>
    obtain ⟨-, -, hedge⟩ := stepWith_cases h
  · exact ⟨hedge.phase_of_idle hrst, hedge.phase_of_busy hrst, hedge.phase_of_resp hrst⟩
  · rw [hedge.eq_of_rst hrst, State.applyReset_phase]

/-- Settles O44: of the three things a step can do to the configuration, only a completing `CFG` sets CONFIGURED and
only a reset clears it. -/
theorem configuredIsSetByCfgAndClearedByReset : Obligations.ConfiguredIsSetByCfgAndClearedByReset := by
  refine ⟨fun extra s t h => ?_, fun s i hs hi => exec_of_unconfigured hs hi⟩
  obtain ⟨hrst, hcfg⟩ | ⟨hrst, hcfg⟩ | ⟨hcomp, hrsp, rounds, key, hd, hcfg⟩ := stepWith_cfg h
  · simp [hcfg, hrst, Cfg.cleared]
  · simp +contextual [hcfg, hrst]
  · exact ⟨fun _ _ => ⟨hcomp, hrsp, rounds, key, hd⟩, fun _ => by simp [hcfg, hcomp.rst_eq, configuredWith]⟩

/-- Settles O45: a reset clears CONFIGURED alone, so a step that changes KEY or NROUNDS completes a `CFG`. -/
theorem keyAndRoundsAreWrittenByCfgOnly : Obligations.KeyAndRoundsAreWrittenByCfgOnly := by
  intro extra s t h hchange
  obtain ⟨-, hcfg⟩ | ⟨-, hcfg⟩ | ⟨hcomp, -, hwrite⟩ := stepWith_cfg h
  · simp [hcfg, Cfg.cleared] at hchange
  · simp [hcfg] at hchange
  · exact ⟨hcomp, hwrite⟩

/-- Settles O39: the state after reset is unconfigured, so the checking commands raise NOT_CONFIGURED there. -/
theorem resetStateIsIdleAndUnconfigured : Obligations.ResetStateIsIdleAndUnconfigured :=
  ⟨rfl, rfl, State.reset.cmdReady_iff.2 ⟨rfl, rfl⟩, fun b i =>
    ⟨_, _, _, exec_of_unconfigured rfl (.inl ⟨b, .inl rfl⟩), exec_of_unconfigured rfl (.inl ⟨b, .inr rfl⟩),
      exec_of_unconfigured rfl (.inr ⟨i, rfl⟩), rfl, rfl, rfl⟩⟩

end Sys2Proof.Machine
end

section
/-! PROOFS. The structural invariant (`State.Inv`): every edge keeps it, and it holds after reset. -/

namespace Sys2Proof.Machine

/-- The values RC is released to are legal, 0 to 254 (10_state.md R29). -/
theorem ofNat_rc_legal (n : Fin 255) : (BitVec.ofNat 8 n.val).toNat ≤ 254 := by
  rw [BitVec.toNat_ofNat]
  omega

section Keeps

variable {s t : State}

/-- An edge that moves the host's side only keeps the invariant. -/
theorem State.Inv.advance (h : s.Inv) : s.advance.Inv :=
  ⟨h.busy_counts, h.rc_legal, h.rsp_legal, h.taken_legal, h.one_each⟩

/-- A reset starts an empty record with no response due (70_reset_and_hazards.md R230). -/
theorem State.Inv.applyReset (h : s.Inv) : s.applyReset.Inv :=
  ⟨nofun, h.rc_legal, nofun, nofun, rfl⟩

/-- An accepted word has LAT ≥ 1 edges to go and one response due (20_memory.md R59). -/
theorem State.Inv.acceptWord (h : s.Inv) (hp : s.phase = .idle) (n : Nat) (w : Word) :
    (s.acceptWord (n + 1) w).Inv where
  busy_counts _ := Nat.le_add_left 1 n
  rc_legal := h.rc_legal
  rsp_legal := nofun
  taken_legal := h.taken_legal
  one_each := by simpa [hp, Phase.due] using h.one_each

/-- A BUSY edge that is not the last leaves an edge to go. -/
theorem State.Inv.countDown (h : s.Inv) (hp : s.phase = .busy) (hc : 1 < s.cyclesLeft) : s.countDown.Inv where
  busy_counts _ := Nat.le_sub_one_of_lt hc
  rc_legal := h.rc_legal
  rsp_legal hr := by simp [hp] at hr
  taken_legal := h.taken_legal
  one_each := h.one_each

/-- The last BUSY edge holds a legal response, which is still due (60_exceptions.md R202). -/
theorem State.Inv.complete (h : s.Inv) (hp : s.phase = .busy) (hc : Completes s.advance.countDown t)
    (hl : legalResponse t.rsp = true) : t.Inv where
  busy_counts hb := by simp [hc.phase] at hb
  rc_legal := by
    obtain hrc | ⟨n, hrc⟩ := hc.rc
    · rw [hrc]; exact h.rc_legal
    · rw [hrc]; exact ofNat_rc_legal n
  rsp_legal _ := hl
  taken_legal := by simpa [hc.log] using h.taken_legal
  one_each := by simpa [hc.log, hc.phase, hp, Phase.due] using h.one_each

/-- The taken response was the one due, and it was legal (20_memory.md R59). -/
theorem State.Inv.takeResponse (h : s.Inv) (hp : s.phase = .resp) : s.takeResponse.Inv where
  busy_counts := nofun
  rc_legal := h.rc_legal
  rsp_legal := nofun
  taken_legal w hw := by
    obtain hw | rfl : w ∈ s.log.taken ∨ w = s.rsp := by simpa using hw
    · exact h.taken_legal w hw
    · exact h.rsp_legal hp
  one_each := by simpa [hp, Phase.due] using h.one_each

/-- Every edge keeps the invariant. -/
theorem Edge.keeps_inv {extra : LatKey → Nat} (he : Edge extra s t) (h : s.Inv) : t.Inv := by
  cases he with
  | reset => exact h.advance.applyReset
  | accept _ hp => exact h.advance.acceptWord hp _ _
  | idle | hold => exact h.advance
  | count _ hp hc => exact h.advance.countDown hp hc
  | error e _ hp => exact h.complete hp (completes_raiseError e _) (legalResponse_errorWord e)
  | command i _ _ hp _ _ hx => exact h.complete hp (exec_next hx).1 (legalResponse_exec hx)
  | take _ hp => exact h.advance.takeResponse hp

end Keeps

/-- Settles O47, by the kind of edge a step is. -/
theorem everyStepKeepsTheInvariant : Obligations.EveryStepKeepsTheInvariant := by
  intro extra s t h hstep
  obtain ⟨-, -, hedge⟩ := stepWith_cases hstep
  exact hedge.keeps_inv h

/-- Settles O48: after reset nothing is accepted, taken or due, and RC is 0. -/
theorem resetMeetsTheInvariant : Obligations.ResetMeetsTheInvariant :=
  ⟨nofun, Nat.zero_le _, nofun, nofun, rfl⟩

end Sys2Proof.Machine
end

section
/-! PROOFS. A step reads the architectural view alone (10_state.md R32): agreement on the view
(`State.Alike`) is agreement on all that an edge reads, and every update keeps it. -/

namespace Sys2Proof.Machine

/-- Two configurations look alike when neither is configured or they are one (10_state.md R25, R26). -/
theorem Cfg.visible_eq_iff {c d : Cfg} :
    c.visible = d.visible ↔ (c.configured = false ∧ d.configured = false) ∨ c = d := by
  obtain ⟨cc, ck, cn⟩ := c
  obtain ⟨dc, dk, dn⟩ := d
  cases cc <;> cases dc <;> simp [Cfg.visible]

/-- A command's transaction reads nothing of an invisible configuration, and leaves alike what looked alike. -/
theorem performChecked_congr (t : Tables) {c d : Cfg} (h : c.visible = d.visible) (i : Instr) :
    (performChecked t c i).2 = (performChecked t d i).2 ∧
      (performChecked t c i).1.visible = (performChecked t d i).1.visible := by
  obtain ⟨hc, hd⟩ | rfl := Cfg.visible_eq_iff.1 h
  · cases i with
    | enc b | dec b | skey j => simpa [performChecked, precheck, hc, hd] using h
    | cfg rounds key => exact ⟨rfl, rfl⟩
    | nop | rnd k b | sbox x | exp e => exact ⟨rfl, h⟩
  · exact ⟨rfl, rfl⟩

theorem transact_congr (t : Tables) {c d : Cfg} (h : c.visible = d.visible) (w : Word) :
    (transact t c w).2 = (transact t d w).2 ∧ (transact t c w).1.visible = (transact t d w).1.visible := by
  unfold transact
  cases decode w with
  | error e => exact ⟨rfl, h⟩
  | ok i => exact performChecked_congr t h i

/-- The latency reads the visible configuration alone (70_reset_and_hazards.md R240). -/
theorem latKey_congr {c d : Cfg} (h : c.visible = d.visible) (w : Word) : latKey w c = latKey w d := by
  obtain ⟨hc, hd⟩ | rfl := Cfg.visible_eq_iff.1 h
  · simp [latKey, hc, hd]
  · rfl

section View

variable {s t : State}

theorem State.phaseView_eq_idle_iff : s.phaseView = .idle ↔ s.phase = .idle := by
  cases h : s.phase <;> simp [State.phaseView, h]

theorem State.phaseView_eq_busy_iff {w : Word} {n : Nat} :
    s.phaseView = .busy w n ↔ s.phase = .busy ∧ s.cur = w ∧ s.cyclesLeft = n := by
  cases h : s.phase <;> simp [State.phaseView, h]

theorem State.phaseView_eq_resp_iff {w : RspWord} : s.phaseView = .resp w ↔ s.phase = .resp ∧ s.rsp = w := by
  cases h : s.phase <;> simp [State.phaseView, h]

/-- PHASE is looked at alike exactly where the two views of it are one. -/
theorem State.phaseView_congr_iff : s.phaseView = t.phaseView ↔
    s.phase = t.phase ∧ (s.phase = .busy → s.cur = t.cur ∧ s.cyclesLeft = t.cyclesLeft) ∧
      (s.phase = .resp → s.rsp = t.rsp) := by
  cases ht : t.phase with
  | idle =>
    rw [State.phaseView_eq_idle_iff.2 ht, State.phaseView_eq_idle_iff]
    exact ⟨fun hs => by simp [hs], And.left⟩
  | busy =>
    rw [State.phaseView_eq_busy_iff.2 ⟨ht, rfl, rfl⟩, State.phaseView_eq_busy_iff]
    exact ⟨fun ⟨hs, h⟩ => by simp [hs, h], fun ⟨hs, h, _⟩ => ⟨hs, h hs⟩⟩
  | resp =>
    rw [State.phaseView_eq_resp_iff.2 ⟨ht, rfl⟩, State.phaseView_eq_resp_iff]
    exact ⟨fun ⟨hs, h⟩ => by simp [hs, h], fun ⟨hs, _, h⟩ => ⟨hs, h hs⟩⟩

/-- Agreement on the architectural view, in the state's own fields. -/
structure State.Alike (s t : State) : Prop where
  visible : s.cfg.visible = t.cfg.visible
  phase : s.phase = t.phase
  cur : s.phase = .busy → s.cur = t.cur
  cyclesLeft : s.phase = .busy → s.cyclesLeft = t.cyclesLeft
  rsp : s.phase = .resp → s.rsp = t.rsp
  tables : s.tables = t.tables
  script : s.script = t.script
  offer : s.offer = t.offer
  log : s.log = t.log

/-- Two states have one architectural view exactly where they are alike. -/
theorem State.arch_eq_iff : s.arch = t.arch ↔ s.Alike t := by
  rw [State.arch, State.arch, ArchView.mk.injEq, State.phaseView_congr_iff]
  constructor
  · rintro ⟨hcfg, ⟨hphase, hbusy, hresp⟩, htables, hscript, hoffer, hlog⟩
    exact ⟨hcfg, hphase, fun h => (hbusy h).1, fun h => (hbusy h).2, hresp, htables, hscript, hoffer, hlog⟩
  · intro h
    exact ⟨h.visible, ⟨h.phase, fun hb => ⟨h.cur hb, h.cyclesLeft hb⟩, h.rsp⟩, h.tables, h.script, h.offer, h.log⟩

/-! The pins and the outputs of alike states. -/

theorem State.Alike.pins (h : s.Alike t) : s.pins = t.pins := congrArg (·.headD PortIn.quiet) h.script

theorem State.Alike.cmdReady (h : s.Alike t) : s.cmdReady = t.cmdReady := by
  rw [State.cmdReady, State.cmdReady, h.pins, h.phase]

theorem State.Alike.rspValid (h : s.Alike t) : s.rspValid = t.rspValid := by
  rw [State.rspValid, State.rspValid, h.pins, h.phase]

/-- `rsp_word` is RSP where it is valid, and RSP is visible there (10_state.md R28). -/
theorem State.Alike.rspWord (h : s.Alike t) (hv : s.rspValid = true) : s.rspWord = t.rspWord := by
  rw [State.rspWord, State.rspWord, if_pos hv, if_pos (h.rspValid ▸ hv)]
  exact h.rsp (s.rspValid_iff.1 hv).2

theorem State.Alike.breaksReadDuty (h : s.Alike t) : s.breaksReadDuty = t.breaksReadDuty := by
  rw [State.breaksReadDuty, State.breaksReadDuty, h.pins, h.rspValid]

theorem State.Alike.breaksOfferDuty (h : s.Alike t) : s.breaksOfferDuty = t.breaksOfferDuty := by
  rw [State.breaksOfferDuty, State.breaksOfferDuty, h.pins, h.offer]

theorem State.Alike.offerAfter (h : s.Alike t) : s.offerAfter = t.offerAfter := by
  rw [State.offerAfter, State.offerAfter, h.pins, h.cmdReady]

/-! Each update of an edge leaves alike what was alike. -/

theorem State.Alike.advance (h : s.Alike t) : s.advance.Alike t.advance :=
  ⟨h.visible, h.phase, h.cur, h.cyclesLeft, h.rsp, h.tables, congrArg List.tail h.script, h.offerAfter, h.log⟩

theorem State.Alike.applyReset (h : s.Alike t) : s.applyReset.Alike t.applyReset :=
  ⟨rfl, rfl, nofun, nofun, nofun, h.tables, h.script, h.offer, rfl⟩

theorem State.Alike.acceptWord (h : s.Alike t) (n : Nat) (w : Word) : (s.acceptWord n w).Alike (t.acceptWord n w) :=
  ⟨h.visible, rfl, fun _ => rfl, fun _ => rfl, nofun, h.tables, h.script, h.offer, by simp [h.log]⟩

theorem State.Alike.countDown (h : s.Alike t) : s.countDown.Alike t.countDown :=
  ⟨h.visible, h.phase, h.cur, fun hb => congrArg (· - 1) (h.cyclesLeft hb), h.rsp, h.tables, h.script, h.offer, h.log⟩

/-- The host takes RSP in RESP, where it is visible. -/
theorem State.Alike.takeResponse (h : s.Alike t) (hp : s.phase = .resp) : s.takeResponse.Alike t.takeResponse :=
  ⟨h.visible, rfl, nofun, nofun, nofun, h.tables, h.script, h.offer, by simp [h.log, h.rsp hp]⟩

/-- Two completions with one response and one visible configuration. -/
theorem State.Alike.of_completes {u v : State} (h : s.Alike t) (hs : Completes s u) (ht : Completes t v)
    (hrsp : u.rsp = v.rsp) (hcfg : u.cfg.visible = v.cfg.visible) : u.Alike v where
  visible := hcfg
  phase := hs.phase.trans ht.phase.symm
  cur hb := by simp [hs.phase] at hb
  cyclesLeft hb := by simp [hs.phase] at hb
  rsp _ := hrsp
  tables := by rw [hs.tables, ht.tables, h.tables]
  script := by rw [hs.script, ht.script, h.script]
  offer := by rw [hs.offer, ht.offer, h.offer]
  log := by rw [hs.log, ht.log, h.log]

/-! The answers of alike states. -/

theorem answerView_next (h : s.Alike t) : answerView (.next s) = answerView (.next t) :=
  congrArg Host.Outcome.next (State.arch_eq_iff.2 h)

/-- The accepted word's execution reads CUR, the tables and the visible configuration (40_control.md R101). -/
theorem State.Alike.answerView_completeWith (h : s.Alike t) (hp : s.phase = .busy) :
    answerView (s.completeWith exec) = answerView (t.completeWith exec) := by
  obtain ⟨u, hu, hsu, huval⟩ := completeWith_answers s
  obtain ⟨v, hv, htv, hvval⟩ := completeWith_answers t
  rw [h.tables, h.cur hp] at huval
  obtain ⟨htrsp, htcfg⟩ := transact_congr t.tables h.visible t.cur
  have hrsp : u.rsp = v.rsp :=
    calc u.rsp = (transact t.tables s.cfg t.cur).2 := congrArg Prod.snd huval
      _ = (transact t.tables t.cfg t.cur).2 := htrsp
      _ = v.rsp := (congrArg Prod.snd hvval).symm
  have hcfg : u.cfg.visible = v.cfg.visible :=
    calc u.cfg.visible = (transact t.tables s.cfg t.cur).1.visible := congrArg (·.1.visible) huval
      _ = (transact t.tables t.cfg t.cur).1.visible := htcfg
      _ = v.cfg.visible := (congrArg (·.1.visible) hvval).symm
  rw [hu, hv]
  exact answerView_next (h.of_completes hsu htv hrsp hcfg)

/-- The edge outside reset reads what is visible in its PHASE. -/
theorem State.Alike.answerView_phaseEdge (h : s.Alike t) (extra : LatKey → Nat) :
    answerView (s.phaseEdge extra exec) = answerView (t.phaseEdge extra exec) := by
  cases hp : s.phase with
  | idle =>
    simp only [State.phaseEdge, hp, h.phase ▸ hp, h.pins, latKey_congr h.visible]
    split
    · exact answerView_next (h.advance.acceptWord _ _)
    · exact answerView_next h.advance
  | busy =>
    simp only [State.phaseEdge, hp, h.phase ▸ hp, h.cyclesLeft hp]
    split
    · exact h.advance.countDown.answerView_completeWith hp
    · exact answerView_next h.advance.countDown
  | resp =>
    simp only [State.phaseEdge, hp, h.phase ▸ hp, h.pins]
    split
    · exact answerView_next (h.advance.takeResponse hp)
    · exact answerView_next h.advance

/-- A step of alike states answers alike: the same refusal, or states that are alike again. -/
theorem State.Alike.answerView_stepWith (h : s.Alike t) (extra : LatKey → Nat) :
    answerView (stepWith extra s) = answerView (stepWith extra t) := by
  simp only [stepWith, State.clockEdge, h.breaksReadDuty, h.breaksOfferDuty, h.pins]
  split
  · rfl
  · split
    · rfl
    · split
      · exact answerView_next h.advance.applyReset
      · exact h.answerView_phaseEdge extra

end View

/-- Settles O52: one view is agreement on all that an output or an edge reads. -/
theorem stepReadsArchitecturalStateOnly : Obligations.StepReadsArchitecturalStateOnly := by
  intro extra s t harch
  have h := State.arch_eq_iff.1 harch
  exact ⟨h.cmdReady, h.rspValid, h.rspWord, h.answerView_stepWith extra⟩

end Sys2Proof.Machine
end

section
/-! PROOFS. A command sent twice in a row (20_memory.md R57): its transaction is idempotent on the configuration it
leaves, and `exec` answers what the transaction says. -/

namespace Sys2Proof.Machine

/-- The transaction of any command but `CFG` leaves the configuration (20_memory.md R57). -/
theorem performChecked_cfg_of_ne_cfg (t : Tables) (c : Cfg) {i : Instr} (hi : ∀ rounds key, i ≠ .cfg rounds key) :
    (performChecked t c i).1 = c := by
  obtain h | ⟨rounds, key, rfl, -⟩ := performChecked_cfg t c i
  · exact h
  · exact absurd rfl (hi rounds key)

/-- A repeated transaction gives its response and its configuration again: `CFG` reads no configuration, and any other
command leaves the one it read (20_memory.md R57). -/
theorem performChecked_repeated (t : Tables) (c : Cfg) (i : Instr) :
    performChecked t (performChecked t c i).1 i = performChecked t c i := by
  obtain h | ⟨rounds, key, rfl, -⟩ := performChecked_cfg t c i
  · rw [h]
  · rfl

/-- Settles O33: the two answers are one transaction on the tables, which the first one leaves, repeated. -/
theorem repeatedCommandAnswersTheSame : Obligations.RepeatedCommandAnswersTheSame := by
  refine ⟨fun i s t h hi => ?_, fun i s => ?_⟩
  · exact (congrArg Prod.fst (exec_next h).2).trans (performChecked_cfg_of_ne_cfg s.tables s.cfg hi)
  · obtain ⟨t, ht, htframe⟩ := exec_completes i s
    obtain ⟨u, hu, huval⟩ := exec_answers i t
    have htval : (t.cfg, t.rsp) = performChecked s.tables s.cfg i := (exec_next ht).2
    have hrepeat : (u.cfg, u.rsp) = (t.cfg, t.rsp) :=
      calc (u.cfg, u.rsp) = performChecked s.tables t.cfg i := by rw [huval, htframe.tables]
        _ = performChecked s.tables (performChecked s.tables s.cfg i).1 i := by rw [← htval]
        _ = performChecked s.tables s.cfg i := performChecked_repeated s.tables s.cfg i
        _ = (t.cfg, t.rsp) := htval.symm
    obtain ⟨hcfg, hrsp⟩ := Prod.mk.inj hrepeat
    exact ⟨t, u, ht, hu, hrsp, hcfg⟩

end Sys2Proof.Machine
end

section
/-! PROOFS. The decoder and the encoder (30_encoding.md R72, R83, R84): which of its three answers the decoder gives, by the
opcode and the reserved bits, and that it and the encoder undo each other. -/

namespace Sys2Proof

open Laws

/-! ## The facts of Laws/PerInstr.lean, for every command -/

theorem opcodeOf_encode (i : Instr) : opcodeOf (encode i) = opcodeOf i.matchWord := by
  cases i with
  | nop => exact OpcodeField.nop
  | cfg rounds key => exact OpcodeField.cfg rounds key
  | enc block => exact OpcodeField.enc block
  | dec block => exact OpcodeField.dec block
  | rnd subkey block => exact OpcodeField.rnd subkey block
  | sbox x => exact OpcodeField.sbox x
  | exp half => exact OpcodeField.exp half
  | skey index => exact OpcodeField.skey index

theorem hasReservedBit_encode (i : Instr) : hasReservedBit (encode i) = false := by
  cases i with
  | nop => exact NoReservedBit.nop
  | cfg rounds key => exact NoReservedBit.cfg rounds key
  | enc block => exact NoReservedBit.enc block
  | dec block => exact NoReservedBit.dec block
  | rnd subkey block => exact NoReservedBit.rnd subkey block
  | sbox x => exact NoReservedBit.sbox x
  | exp half => exact NoReservedBit.exp half
  | skey index => exact NoReservedBit.skey index

theorem commandOf_encode (i : Instr) : commandOf (encode i) = i := by
  cases i with
  | nop => exact CommandFields.nop
  | cfg rounds key => exact CommandFields.cfg rounds key
  | enc block => exact CommandFields.enc block
  | dec block => exact CommandFields.dec block
  | rnd subkey block => exact CommandFields.rnd subkey block
  | sbox x => exact CommandFields.sbox x
  | exp half => exact CommandFields.exp half
  | skey index => exact CommandFields.skey index

theorem encode_and_maskWord (i : Instr) : encode i &&& i.maskWord = i.matchWord := by
  cases i with
  | nop => exact MatchMask.nop
  | cfg rounds key => exact MatchMask.cfg rounds key
  | enc block => exact MatchMask.enc block
  | dec block => exact MatchMask.dec block
  | rnd subkey block => exact MatchMask.rnd subkey block
  | sbox x => exact MatchMask.sbox x
  | exp half => exact MatchMask.exp half
  | skey index => exact MatchMask.skey index

/-- The opcode of every row of 30_encoding.md R73 is legal. -/
theorem Instr.opcodeOf_matchWord_lt (i : Instr) : (opcodeOf i.matchWord).toNat < 8 := by
  cases i <;> simp [Instr.matchWord, opcodeOf]

/-! ## The three answers of the decoder (30_encoding.md R83) -/

theorem decode_eq_illegalOpcode_iff {w : Word} : decode w = .error .illegalOpcode ↔ 8 ≤ (opcodeOf w).toNat := by
  unfold decode
  split
  next hop => simp [hop]
  next hop => split <;> simp [hop]

theorem decode_eq_reservedField_iff {w : Word} :
    decode w = .error .reservedField ↔ (opcodeOf w).toNat < 8 ∧ hasReservedBit w = true := by
  unfold decode
  split
  next hop => simp [Nat.not_lt.2 hop]
  next hop => split <;> simp_all

theorem decode_eq_ok_iff {w : Word} {i : Instr} :
    decode w = .ok i ↔ (opcodeOf w).toNat < 8 ∧ hasReservedBit w = false ∧ commandOf w = i := by
  unfold decode
  split
  next hop => simp [Nat.not_lt.2 hop]
  next hop => split <;> simp_all

theorem decode_encode (i : Instr) : decode (encode i) = .ok i :=
  decode_eq_ok_iff.2 ⟨by rw [opcodeOf_encode]; exact i.opcodeOf_matchWord_lt, hasReservedBit_encode i, commandOf_encode i⟩

/-! ## The bits of a word that decodes -/

theorem hasReservedBit_eq_true_iff {w : Word} : hasReservedBit w = true ↔ w &&& rsvdMask (opcodeOf w) ≠ 0 := by
  simp [hasReservedBit]

theorem hasReservedBit_eq_false_iff {w : Word} : hasReservedBit w = false ↔ w &&& rsvdMask (opcodeOf w) = 0 := by
  simp [hasReservedBit]

/-- A field within the reserved bits of the word's opcode is zero in a word of no error (30_encoding.md R83). -/
theorem reservedField_eq_zero {w : Word} {op : BitVec 4} (start len : Nat) (hop : opcodeOf w = op)
    (hr : hasReservedBit w = false) (hm : (rsvdMask op).extractLsb' start len = BitVec.allOnes len) :
    w.extractLsb' start len = 0#len :=
  extract_zero_of_and start len (hasReservedBit_eq_false_iff.1 hr) (hop ▸ hm)

/-- A word of one operand in its low bits is its opcode, the reserved zeros and the operand. -/
theorem opcode_append_operand {w : Word} {op : BitVec 4} (rsvd len : Nat) (hlen : 4 + rsvd + len = 32)
    (hop : opcodeOf w = op) (hr : hasReservedBit w = false)
    (hm : (rsvdMask op).extractLsb' len rsvd = BitVec.allOnes rsvd) :
    (op ++ 0#rsvd ++ w.extractLsb' 0 len).cast hlen = w := by
  rw [← reservedField_eq_zero len rsvd hop hr hm, ← hop, opcodeOf,
    BitVec.extractLsb'_append_extractLsb'_eq_extractLsb' (by omega),
    BitVec.extractLsb'_append_extractLsb'_eq_extractLsb' (by omega)]
  exact BitVec.eq_of_toNat_eq (by simp [hlen, Nat.mod_eq_of_lt w.isLt])

/-- A word with a legal opcode and no reserved bit set is its command's word: opcode, operand fields and reserved zeros
are all its bits. -/
theorem encode_commandOf {w : Word} (hlt : (opcodeOf w).toNat < 8) (hr : hasReservedBit w = false) :
    encode (commandOf w) = w := by
  unfold commandOf
  split
  case h_1 h => -- `NOP`
    have hop : opcodeOf w = 0x0#4 := BitVec.eq_of_toNat_eq h
    have hz := reservedField_eq_zero 0 28 hop hr (by decide)
    show 0x0#4 ++ 0#28 = w
    rw [← hop, ← hz, opcodeOf, extract_join w 0 28 4]
    exact extract_whole w
  case h_2 h => -- `CFG`
    have hop : opcodeOf w = 0x1#4 := BitVec.eq_of_toNat_eq h
    have hz := reservedField_eq_zero 12 8 hop hr (by decide)
    show 0x1#4 ++ w.extractLsb' 20 8 ++ 0#8 ++ w.extractLsb' 0 12 = w
    rw [← hop, ← hz, opcodeOf, extract_join w 20 8 4, extract_join w 12 8 12, extract_join w 0 12 20]
    exact extract_whole w
  case h_3 h => -- `ENC`
    exact opcode_append_operand 12 16 rfl (BitVec.eq_of_toNat_eq h) hr (by decide)
  case h_4 h => -- `DEC`
    exact opcode_append_operand 12 16 rfl (BitVec.eq_of_toNat_eq h) hr (by decide)
  case h_5 h => -- `RND`
    have hop : opcodeOf w = 0x4#4 := BitVec.eq_of_toNat_eq h
    show 0x4#4 ++ w.extractLsb' 16 12 ++ w.extractLsb' 0 16 = w
    rw [← hop, opcodeOf, extract_join w 16 12 4, extract_join w 0 16 16]
    exact extract_whole w
  case h_6 h => -- `SBOX`
    exact opcode_append_operand 16 12 rfl (BitVec.eq_of_toNat_eq h) hr (by decide)
  case h_7 h => -- `EXP`
    exact opcode_append_operand 20 8 rfl (BitVec.eq_of_toNat_eq h) hr (by decide)
  case h_8 h0 h1 h2 h3 h4 h5 h6 => -- `SKEY`
    have h : (opcodeOf w).toNat = 7 := by simp only [imp_false] at h0 h1 h2 h3 h4 h5 h6; omega
    have hop : opcodeOf w = 0x7#4 := BitVec.eq_of_toNat_eq h
    exact opcode_append_operand 20 8 rfl hop hr (by decide)

/-- A word that decodes has the decoded command's word (30_encoding.md R72). -/
theorem encode_of_decode {w : Word} {i : Instr} (h : decode w = .ok i) : encode i = w := by
  obtain ⟨hlt, hr, rfl⟩ := decode_eq_ok_iff.1 h
  exact encode_commandOf hlt hr

/-- Settles O2: the opcode, the reserved bits and the operand fields of a command's word, each by its lemma. -/
theorem decodeEncodeRoundTrip : Obligations.DecodeEncodeRoundTrip := decode_encode

/-- Settles O3: a decoded word holds nothing but opcode, operands and reserved zeros. -/
theorem decodedWordIsItsEncoding : Obligations.DecodedWordIsItsEncoding := fun _ _ => encode_of_decode

/-- Settles O1: each sample word is, by computation, the encoding of its command. -/
theorem sampleWordsDecode : Obligations.SampleWordsDecode :=
  ⟨decode_encode .nop, decode_encode (.cfg 6 0x0A5), decode_encode (.enc 0x4142), decode_encode (.dec 0xC77C),
    decode_encode (.rnd 0x0A5 0x4142), decode_encode (.sbox 0x6A3), decode_encode (.exp 0x42), decode_encode (.skey 5)⟩

end Sys2Proof
end

section
/-! PROOFS. The rows of 30_encoding.md R73 and the three classes of R83: a row's match and mask name its opcode and its
reserved bits, which decide the class of a word. -/

namespace Sys2Proof

open Machine

/-- MASK covers the opcode and every reserved bit (30_encoding.md R73). -/
theorem Instr.maskWord_eq (i : Instr) : i.maskWord = 0xF0000000#32 ||| rsvdMask (opcodeOf i.matchWord) := by
  cases i <;> simp [Instr.maskWord, Instr.matchWord, opcodeOf, rsvdMask]

/-- MATCH is the opcode with zeros below it (30_encoding.md R73). -/
theorem Instr.matchWord_eq (i : Instr) : i.matchWord = opcodeOf i.matchWord ++ 0#28 := by
  cases i <;> simp only [Instr.matchWord] <;> decide

theorem Instr.opcodeOf_maskWord (i : Instr) : opcodeOf i.maskWord = BitVec.allOnes 4 := by
  cases i <;> simp [Instr.maskWord, opcodeOf]

/-- No MATCH has a bit in its row's reserved bits. -/
theorem Instr.hasReservedBit_matchWord (i : Instr) : hasReservedBit i.matchWord = false := by
  cases i <;> simp [Instr.matchWord, hasReservedBit, opcodeOf, rsvdMask]

/-- One opcode has one row of 30_encoding.md R73. -/
theorem Instr.row_eq_of_opcode_eq {i j : Instr} (h : opcodeOf i.matchWord = opcodeOf j.matchWord) :
    i.matchWord = j.matchWord ∧ i.maskWord = j.maskWord := by
  rw [i.matchWord_eq, j.matchWord_eq, i.maskWord_eq, j.maskWord_eq, h]
  exact ⟨rfl, rfl⟩

section Row
variable {w : Word} {i j : Instr}

/-- A word that matches a row has the row's opcode. -/
theorem opcodeOf_of_row (h : w &&& i.maskWord = i.matchWord) : opcodeOf w = opcodeOf i.matchWord := by
  have hop : opcodeOf (w &&& i.maskWord) = opcodeOf w &&& opcodeOf i.maskWord := BitVec.extractLsb'_and ..
  rw [h, i.opcodeOf_maskWord, BitVec.and_allOnes] at hop
  exact hop.symm

/-- A word that matches a row has none of the row's reserved bits set. -/
theorem hasReservedBit_of_row (h : w &&& i.maskWord = i.matchWord) : hasReservedBit w = false := by
  have hsub : i.maskWord &&& rsvdMask (opcodeOf i.matchWord) = rsvdMask (opcodeOf i.matchWord) := by
    rw [i.maskWord_eq]
    ext k hk
    simp +contextual
  refine hasReservedBit_eq_false_iff.2 ?_
  calc w &&& rsvdMask (opcodeOf w) = (w &&& i.maskWord) &&& rsvdMask (opcodeOf i.matchWord) := by
        rw [BitVec.and_assoc, hsub, opcodeOf_of_row h]
    _ = i.matchWord &&& rsvdMask (opcodeOf i.matchWord) := by rw [h]
    _ = 0 := hasReservedBit_eq_false_iff.1 i.hasReservedBit_matchWord

/-- A decoded word matches the row of its command. -/
theorem row_of_decode (h : decode w = .ok i) : w &&& i.maskWord = i.matchWord :=
  encode_of_decode h ▸ encode_and_maskWord i

/-- A word that matches a row decodes, and to a command of that row. -/
theorem decode_of_row (h : w &&& j.maskWord = j.matchWord) :
    ∃ i, decode w = .ok i ∧ i.matchWord = j.matchWord ∧ i.maskWord = j.maskWord := by
  have hop := opcodeOf_of_row h
  have hlt : (opcodeOf w).toNat < 8 := hop ▸ j.opcodeOf_matchWord_lt
  have hd : decode w = .ok (commandOf w) := decode_eq_ok_iff.2 ⟨hlt, hasReservedBit_of_row h, rfl⟩
  exact ⟨_, hd, Instr.row_eq_of_opcode_eq ((opcodeOf_of_row (row_of_decode hd)).symm.trans hop)⟩

/-- Two rows that match one word are one row. -/
theorem row_unique (hi : w &&& i.maskWord = i.matchWord) (hj : w &&& j.maskWord = j.matchWord) :
    i.matchWord = j.matchWord :=
  (Instr.row_eq_of_opcode_eq ((opcodeOf_of_row hi).symm.trans (opcodeOf_of_row hj))).1

end Row

/-- Settles O4: matching a row is having its opcode and none of its reserved bits, and the rows are the model's. -/
theorem matchAndMaskDecideTheCommand : Obligations.MatchAndMaskDecideTheCommand :=
  ⟨fun _ _ => row_of_decode, fun _ _ => decode_of_row, Instr.maskWord_eq, fun _ _ _ => row_unique, ⟨rfl, rfl, rfl⟩,
    fun _ _ => ⟨rfl, rfl, rfl⟩, fun _ => ⟨rfl, rfl, rfl⟩, fun _ => ⟨rfl, rfl, rfl⟩, fun _ _ => ⟨rfl, rfl, rfl⟩,
    fun _ => ⟨rfl, rfl, rfl⟩, fun _ => ⟨rfl, rfl, rfl⟩, fun _ => ⟨rfl, rfl, rfl⟩⟩

/-- The opcode as a number is the word's top four bits (30_encoding.md R70). -/
theorem opcodeOf_toNat (w : Word) : (opcodeOf w).toNat = w.toNat / 2 ^ 28 := by
  have hw := w.isLt
  simp only [opcodeOf, BitVec.extractLsb'_toNat, Nat.shiftRight_eq_div_pow]
  omega

/-- At the completing edge a step is the execution of the accepted word (40_control.md R101). -/
theorem Machine.State.completing.stepWith_eq {s : State} (h : s.completing) (extra : LatKey → Nat) :
    stepWith extra s = s.atEdge.completeWith exec := by
  obtain ⟨hbusy, hlast, hrst, hread, hoffer⟩ := h
  rw [stepWith_phaseEdge hread hoffer hrst]
  simp [State.phaseEdge, hbusy, hlast, State.atEdge]

/-- A word in error completes with its error response, which writes RSP and PHASE only (60_exceptions.md R201). -/
theorem Machine.State.completing.stepWith_of_error {s : State} (h : s.completing) (extra : LatKey → Nat) {e : ErrCode}
    (he : decode s.cur = .error e) :
    stepWith extra s = .next { s.atEdge with rsp := errorWord e, phase := .resp } := by
  have hcur : s.atEdge.cur = s.cur := rfl
  rw [h.stepWith_eq extra, State.completeWith, hcur, he]
  rfl

/-- Settles O5: the decoder's three answers are the three classes, and an error's step is `raiseError` at the edge. -/
theorem everyWordIsInOneClass : Obligations.EveryWordIsInOneClass := by
  refine ⟨fun w => ?_, fun w => ?_, fun w hop hr => ?_, fun extra s h he => h.stepWith_of_error extra he,
    fun extra s h he => h.stepWith_of_error extra he⟩
  · rw [decode_eq_illegalOpcode_iff, opcodeOf_toNat]
  · rw [decode_eq_reservedField_iff, opcodeOf_toNat, hasReservedBit_eq_true_iff]
  · have hd : decode w = .ok (commandOf w) :=
      decode_eq_ok_iff.2 ⟨by rwa [opcodeOf_toNat], hasReservedBit_eq_false_iff.2 hr, rfl⟩
    exact ⟨_, hd, row_of_decode hd⟩

end Sys2Proof
end

section
/-! PROOFS. The assembler (30_encoding.md R86, R87): a source command whose operands fit is the listing of one command, whose
word it assembles to. -/

namespace Sys2Proof.Machine

/-- A source command assembles to a word exactly where its operands fit, and then to that word (30_encoding.md R86). -/
theorem assembleSource_eq_ok_iff {c : Source} {w : Word} :
    assembleSource c = .ok w ↔ c.wellFormed = true ∧ sourceWord c = w := by
  unfold assembleSource
  split <;> simp_all

/-- The operands of a listing fit, having their fields' widths (30_encoding.md R74). -/
theorem wellFormed_sourceOfInstr (i : Instr) : (sourceOfInstr i).wellFormed = true := by
  cases i with
  | nop => rfl
  | cfg rounds key => simp [sourceOfInstr, Source.wellFormed, key.isLt, rounds.isLt]
  | rnd subkey block => simp [sourceOfInstr, Source.wellFormed, block.isLt, subkey.isLt]
  | enc v | dec v | sbox v | exp v | skey v => simp [sourceOfInstr, Source.wellFormed, v.isLt]

theorem sourceWord_sourceOfInstr (i : Instr) : sourceWord (sourceOfInstr i) = encode i := by
  cases i <;> simp [sourceOfInstr, sourceWord]

/-- A source command whose operands fit, other than `.word`, is the listing of the command whose word it becomes: no
operand is truncated, and only the pseudo-instruction is expanded (30_encoding.md R86, R87). -/
theorem exists_listing {c : Source} (hfit : c.wellFormed = true) (hword : ∀ v, c ≠ .word v) :
    ∃ i, sourceWord c = encode i ∧ sourceOfInstr i = expandPseudo c := by
  cases c with
  | nop => exact ⟨.nop, rfl, rfl⟩
  | cfg key rounds =>
    obtain ⟨hkey, hrounds⟩ : key < 2 ^ 12 ∧ rounds.getD 6 < 2 ^ 8 := by simpa [Source.wellFormed] using hfit
    exact ⟨.cfg (.ofNat 8 (rounds.getD 6)) (.ofNat 12 key), rfl,
      congrArg₂ (fun k n => Source.cfg k (some n)) (Nat.mod_eq_of_lt hkey) (Nat.mod_eq_of_lt hrounds)⟩
  | enc block => exact ⟨.enc (.ofNat 16 block), rfl, congrArg Source.enc (Nat.mod_eq_of_lt (of_decide_eq_true hfit))⟩
  | dec block => exact ⟨.dec (.ofNat 16 block), rfl, congrArg Source.dec (Nat.mod_eq_of_lt (of_decide_eq_true hfit))⟩
  | rnd block subkey =>
    obtain ⟨hblock, hsubkey⟩ : block < 2 ^ 16 ∧ subkey < 2 ^ 12 := by simpa [Source.wellFormed] using hfit
    exact ⟨.rnd (.ofNat 12 subkey) (.ofNat 16 block), rfl,
      congrArg₂ Source.rnd (Nat.mod_eq_of_lt hblock) (Nat.mod_eq_of_lt hsubkey)⟩
  | sbox x => exact ⟨.sbox (.ofNat 12 x), rfl, congrArg Source.sbox (Nat.mod_eq_of_lt (of_decide_eq_true hfit))⟩
  | exp half => exact ⟨.exp (.ofNat 8 half), rfl, congrArg Source.exp (Nat.mod_eq_of_lt (of_decide_eq_true hfit))⟩
  | skey index => exact ⟨.skey (.ofNat 8 index), rfl, congrArg Source.skey (Nat.mod_eq_of_lt (of_decide_eq_true hfit))⟩
  | word v => exact absurd rfl (hword v)

/-- Settles O55: what assembles is the listing of a command, and a command's word decodes to it. -/
theorem assemblingNeverTruncates : Obligations.AssemblingNeverTruncates := by
  refine ⟨fun c w h hword => ?_, fun i => ?_⟩
  · obtain ⟨hfit, rfl⟩ := assembleSource_eq_ok_iff.1 h
    obtain ⟨i, hi, hlisting⟩ := exists_listing hfit hword
    exact ⟨i, hi ▸ decode_encode i, hlisting⟩
  · exact assembleSource_eq_ok_iff.2 ⟨wellFormed_sourceOfInstr i, sourceWord_sourceOfInstr i⟩

/-- Settles O54: a `cfg` without rounds has, in its check and in its word, 6 rounds; the worked lines by computation. -/
theorem assemblyExamplesAssemble : Obligations.AssemblyExamplesAssemble :=
  ⟨fun _ => rfl, rfl, rfl, rfl, rfl, rfl, rfl, rfl, rfl⟩

end Sys2Proof.Machine
end

section
/-! PROOFS. One edge (40_control.md R100 to R105): what acceptance, taking and completing are as steps, when they
happen, and what every other edge leaves alone. -/

namespace Sys2Proof.Machine

/-! ## When the host and the engine meet (R100, R104) -/

theorem State.accepts_iff (s : State) :
    s.accepts = true ↔ s.pins.rst = false ∧ s.phase = .idle ∧ s.pins.cmdValid = true := by
  rw [State.accepts, Bool.and_eq_true, s.cmdReady_iff, and_assoc]

theorem State.takes_iff (s : State) :
    s.takes = true ↔ s.pins.rst = false ∧ s.phase = .resp ∧ s.pins.rspReady = true := by
  rw [State.takes, Bool.and_eq_true, s.rspValid_iff, and_assoc]

/-- The standing offer is the word offered and not accepted, outside reset (R104; log 12). -/
theorem State.offerAfter_eq_some_iff {s : State} {w : Word} : s.offerAfter = some w ↔
    s.pins.rst = false ∧ s.pins.cmdValid = true ∧ s.pins.cmdWord = w ∧ s.accepts = false := by
  cases hrst : s.pins.rst <;> cases hv : s.pins.cmdValid <;> simp [State.offerAfter, State.accepts, hrst, hv, and_comm]

theorem State.offerAfter_of_accepts {s : State} (h : s.accepts = true) : s.offerAfter = none :=
  Option.eq_none_iff_forall_ne_some.2 fun _ ho => by simp [State.offerAfter_eq_some_iff, h] at ho

theorem State.offerAfter_of_not_valid {s : State} (h : s.pins.cmdValid = false) : s.offerAfter = none :=
  Option.eq_none_iff_forall_ne_some.2 fun _ ho => by simp [State.offerAfter_eq_some_iff, h] at ho

theorem State.breaksReadDuty_of_not_reading {s : State} (h : s.pins.readsRsp = false) : s.breaksReadDuty = false := by
  simp [State.breaksReadDuty, h]

theorem State.breaksOfferDuty_of_not_valid {s : State} (h : s.pins.cmdValid = false) : s.breaksOfferDuty = false := by
  simp [State.breaksOfferDuty, h]

theorem State.breaksOfferDuty_of_no_offer {s : State} (h : s.offer = none) : s.breaksOfferDuty = false := by
  simp [State.breaksOfferDuty, h]

/-! ## A quiet host (log 4) -/

section Quiet

variable {s : State}

theorem State.breaksReadDuty_of_quiet (h : s.pins = .quiet) : s.breaksReadDuty = false :=
  State.breaksReadDuty_of_not_reading (congrArg PortIn.readsRsp h)

theorem State.breaksOfferDuty_of_quiet (h : s.pins = .quiet) : s.breaksOfferDuty = false :=
  State.breaksOfferDuty_of_not_valid (congrArg PortIn.cmdValid h)

theorem State.completing_of_quiet (h : s.pins = .quiet) (hp : s.phase = .busy) (hc : s.cyclesLeft ≤ 1) :
    s.completing :=
  ⟨hp, hc, congrArg PortIn.rst h, State.breaksReadDuty_of_quiet h, State.breaksOfferDuty_of_quiet h⟩

end Quiet

/-! ## The steps that accept, take and complete -/

section Step

variable {s t : State}

theorem stepWith_of_accepts (extra : LatKey → Nat) (hread : s.breaksReadDuty = false)
    (hoffer : s.breaksOfferDuty = false) (h : s.accepts = true) :
    stepWith extra s = .next (s.advance.acceptWord (extra (latKey s.pins.cmdWord s.cfg) + 1) s.pins.cmdWord) := by
  obtain ⟨hrst, hp, hv⟩ := s.accepts_iff.1 h
  simp [stepWith_phaseEdge hread hoffer hrst, State.phaseEdge, hp, hv]

theorem stepWith_of_takes (extra : LatKey → Nat) (hread : s.breaksReadDuty = false)
    (hoffer : s.breaksOfferDuty = false) (h : s.takes = true) :
    stepWith extra s = .next s.advance.takeResponse := by
  obtain ⟨hrst, hp, hv⟩ := s.takes_iff.1 h
  simp [stepWith_phaseEdge hread hoffer hrst, State.phaseEdge, hp, hv]

/-- At the edge at which a command executes, a step is its meaning (R101). -/
theorem State.completing.stepWith_of_ok (h : s.completing) (extra : LatKey → Nat) {i : Instr}
    (hd : decode s.cur = .ok i) : stepWith extra s = exec i s.atEdge := by
  have hcur : s.atEdge.cur = s.cur := rfl
  rw [h.stepWith_eq extra, State.completeWith, hcur, hd]

/-- At the edge at which a word executes, a step is its transaction, in the state past the edge (R101). -/
theorem State.completing.stepWith_answers (h : s.completing) (extra : LatKey → Nat) :
    ∃ t, stepWith extra s = .next t ∧ Completes s.atEdge t ∧ (t.cfg, t.rsp) = transact s.tables s.cfg s.cur := by
  rw [h.stepWith_eq extra]
  exact completeWith_answers s.atEdge

end Step

/-! ## What every edge does -/

section Edge

variable {extra : LatKey → Nat} {s t : State}

/-- Every edge notes the standing offer, whatever else it does. -/
theorem Edge.offer_eq (h : Edge extra s t) : t.offer = s.offerAfter := by
  cases h with
  | reset | accept | idle | count | error | take | hold => rfl
  | command i _ _ _ _ _ hx => exact (exec_next hx).1.offer

/-- An edge into BUSY, or within it, writes no configuration, and one within it not CUR (R101). -/
theorem Edge.keeps_of_busy (h : Edge extra s t) (hb : t.phase = .busy) :
    t.cfg = s.cfg ∧ (s.phase = .busy → t.cur = s.cur) := by
  cases h with
  | reset | error | take => cases hb
  | accept _ hp => exact ⟨rfl, by simp [hp]⟩
  | idle | count | hold => exact ⟨rfl, fun _ => rfl⟩
  | command i _ _ _ _ _ hx => simp [(exec_next hx).1.phase] at hb

/-- Where nothing is accepted or taken, an edge of IDLE or RESP leaves the engine as it is (R102, R104). -/
theorem Edge.sameEngine_of_waiting (h : Edge extra s t) (hrst : s.pins.rst = false) (ha : s.accepts = false)
    (ht : s.takes = false) (hb : s.phase ≠ .busy) : s.sameEngine t ∧ t.log = s.log := by
  cases h with
  | reset h1 => simp [hrst] at h1
  | accept h0 hp hv => simp [s.accepts_iff.2 ⟨h0, hp, hv⟩] at ha
  | take h0 hp hv => simp [s.takes_iff.2 ⟨h0, hp, hv⟩] at ht
  | idle | hold => exact ⟨⟨rfl, rfl, rfl, rfl, rfl, rfl, rfl⟩, rfl⟩
  | count _ hp | error _ _ hp | command _ _ _ hp => exact absurd hp hb

/-- A BUSY edge that is not the last counts, and leaves the rest of the engine as it is (R102). -/
theorem Edge.sameEngine_of_counting (h : Edge extra s t) (hrst : s.pins.rst = false) (hb : s.phase = .busy)
    (hc : 1 < s.cyclesLeft) : State.sameEngine { s with cyclesLeft := s.cyclesLeft - 1 } t ∧ t.log = s.log := by
  cases h with
  | reset h1 => simp [hrst] at h1
  | count => exact ⟨⟨rfl, rfl, rfl, rfl, rfl, rfl, rfl⟩, rfl⟩
  | error _ _ _ hl | command _ _ _ _ hl => omega
  | accept _ hp | idle _ hp | take _ hp | hold _ hp => simp [hb] at hp

end Edge

/-! ## The word `NOP` (R105) -/

/-- The only word of opcode 0 without a reserved bit is 0, the word of `NOP`. -/
theorem decode_of_opcode_zero {w : Word} (h : opcodeOf w = 0#4) :
    decode w = if w = 0 then .ok .nop else .error .reservedField := by
  split
  next h0 => subst h0; rfl
  next h0 =>
    refine decode_eq_reservedField_iff.2 ⟨by simp [h], Bool.of_not_eq_false fun hr => h0 ?_⟩
    have hd : decode w = .ok .nop := decode_eq_ok_iff.2 ⟨by simp [h], hr, by simp [commandOf, h]⟩
    exact (encode_of_decode hd).symm

/-! ## The word stored for the next step (log 13) -/

/-- The stored word is at the edge at which it executes: a quiet host breaks no duty. -/
theorem State.withFetchWord_completing (s : State) (nbits w : Nat) : (s.withFetchWord nbits w).completing :=
  State.completing_of_quiet rfl rfl (Nat.le_refl 1)

theorem State.withFetchWord_cur (s : State) (w : Word) : (s.withFetchWord 32 w.toNat).cur = w := by
  rw [State.withFetchWord, Nat.mod_eq_of_lt w.isLt, BitVec.ofNat_toNat, BitVec.setWidth_eq]

/-- Settles O32: a completing step is the transaction, and of the edges into BUSY only acceptance writes CUR. -/
theorem completionIsExecOfTheWord : Obligations.CompletionIsExecOfTheWord := by
  refine ⟨fun extra s h => ?_, fun extra s t h hb => ?_⟩
  · obtain ⟨t, ht, hframe, hval⟩ := h.stepWith_answers extra
    exact ⟨t, ht, hframe.phase, hval⟩
  · obtain ⟨-, -, hedge⟩ := stepWith_cases h
    exact hedge.keeps_of_busy hb

/-- Settles O36, from what the waiting and the counting edges leave alone. -/
theorem waitingEdgesLeaveTheEngine : Obligations.WaitingEdgesLeaveTheEngine := by
  intro extra s t h hrst ha ht
  obtain ⟨-, -, hedge⟩ := stepWith_cases h
  exact ⟨hedge.sameEngine_of_waiting hrst ha ht, hedge.sameEngine_of_counting hrst⟩

/-- Settles O6: `atEdge` is the state the statement writes out. -/
theorem stepRunsDecodedCommand : Obligations.StepRunsDecodedCommand :=
  fun _ _ h hd => h.stepWith_of_ok Config.extraLat hd

/-- Settles O7: the stored word completes at the next edge, which uses up the one quiet entry before the script. -/
theorem fetchWordRunsNext : Obligations.FetchWordRunsNext := by
  intro s w i hd
  have hcur : decode (s.withFetchWord 32 w.toNat).cur = .ok i := by rwa [s.withFetchWord_cur]
  exact ⟨_, (s.withFetchWord_completing 32 w.toNat).stepWith_of_ok Config.extraLat hcur, rfl, rfl, rfl, rfl, rfl⟩

/-- Settles O8: a word of opcode 0 is the word 0, or in error. -/
theorem nopAnswersZero : Obligations.NopAnswersZero := by
  refine ⟨fun s => rfl, fun extra s h hop => ?_⟩
  have hd := decode_of_opcode_zero hop
  split
  next h0 => exact h.stepWith_of_ok extra (by rw [hd, if_pos h0])
  next h0 => exact h.stepWith_of_error extra (by rw [hd, if_neg h0])

/-- Settles O35: the accepting and the taking step, and the outputs as functions of PHASE. -/
theorem acceptanceAndTakingEdges : Obligations.AcceptanceAndTakingEdges := by
  refine ⟨fun extra s hread hoffer h => ?_, fun extra s hread hoffer h => ?_, fun s => ⟨?_, ?_, ?_, ?_, ?_⟩⟩
  · rw [stepWith_of_accepts extra hread hoffer h, ← State.offerAfter_of_accepts h]
    rfl
  · rw [stepWith_of_takes extra hread hoffer h]
    rfl
  · rw [s.accepts_iff, s.cmdReady_iff]
    tauto
  · rw [s.takes_iff, s.rspValid_iff]
    tauto
  · intro hrst
    simp [s.cmdReady_iff, s.rspValid_iff, hrst]
  · exact fun hv => if_pos hv
  · intro hb
    simp [State.cmdReady, State.rspValid, hb]

/-- Settles O43: every edge notes the offer by one rule. -/
theorem unacceptedOfferIsRemembered : Obligations.UnacceptedOfferIsRemembered := by
  intro extra s t w h
  obtain ⟨-, -, hedge⟩ := stepWith_cases h
  rw [hedge.offer_eq, State.offerAfter_eq_some_iff]

end Sys2Proof.Machine
end

section
/-! PROOFS. A run is the fold of `Exec` over its words (40_control.md R106): `State.OnRunFrom` holds from a reset edge
on, and every edge outside reset keeps it. -/

namespace Sys2Proof.Machine

/-- One word more is one transaction more, in the configuration the words before it left. -/
theorem transactAll_concat (t : Tables) (c : Cfg) (ws : List Word) (w : Word) :
    transactAll t c (ws ++ [w]) =
      ((transact t (transactAll t c ws).1 w).1,
        (transactAll t c ws).2 ++ [(transact t (transactAll t c ws).1 w).2]) := by
  induction ws generalizing c with
  | nil => rfl
  | cons v ws ih => simp [transactAll, ih]

theorem transact_of_error (t : Tables) (c : Cfg) {w : Word} {e : ErrCode} (h : decode w = .error e) :
    transact t c w = (c, errorWord e) := by
  simp [transact, h]

theorem transact_of_ok (t : Tables) (c : Cfg) {w : Word} {i : Instr} (h : decode w = .ok i) :
    transact t c w = performChecked t c i := by
  simp [transact, h]

section OnRun

variable {c : Cfg} {s t : State}

theorem State.executed_of_busy (h : s.phase = .busy) : s.executed = s.log.accepted.dropLast := if_pos h

theorem State.executed_of_not_busy (h : s.phase ≠ .busy) : s.executed = s.log.accepted := if_neg h

theorem State.produced_of_resp (h : s.phase = .resp) : s.produced = s.log.taken ++ [s.rsp] := if_pos h

theorem State.produced_of_not_resp (h : s.phase ≠ .resp) : s.produced = s.log.taken := if_neg h

/-- A run starts IDLE with an empty record, in any configuration (R106). -/
theorem State.OnRunFrom.of_empty (hp : s.phase = .idle) (hl : s.log = { accepted := [], taken := [] }) :
    s.OnRunFrom s.cfg where
  folds := by simp [State.executed, State.produced, hp, hl, transactAll]
  in_flight hb := by simp [hp] at hb

/-- While BUSY the accepted words are the executed ones and CUR. -/
theorem State.OnRunFrom.executed_concat_cur (h : s.OnRunFrom c) (hp : s.phase = .busy) :
    s.executed ++ [s.cur] = s.log.accepted := by
  rw [State.executed_of_busy hp]
  exact List.dropLast_append_getLast? _ (h.in_flight hp)

/-- The host's side and the step counter are no part of a run. -/
theorem State.OnRunFrom.advance (h : s.OnRunFrom c) : s.advance.OnRunFrom c := ⟨h.folds, h.in_flight⟩

theorem State.OnRunFrom.countDown (h : s.OnRunFrom c) : s.countDown.OnRunFrom c := ⟨h.folds, h.in_flight⟩

/-- An accepted word is in flight: it has not executed yet (R102). -/
theorem State.OnRunFrom.acceptWord (h : s.OnRunFrom c) (hp : s.phase = .idle) (n : Nat) (w : Word) :
    (s.acceptWord n w).OnRunFrom c where
  folds := by simpa [State.executed, State.produced, hp] using h.folds
  in_flight _ := by simp

/-- The last BUSY edge executes the word in flight: one step of the fold (R101). -/
theorem State.OnRunFrom.complete (h : s.OnRunFrom c) (hp : s.phase = .busy) (hc : Completes s.atEdge t)
    (hval : (t.cfg, t.rsp) = transact s.tables s.cfg s.cur) : t.OnRunFrom c where
  folds := by
    have hlog : t.log = s.log := hc.log
    have htables : t.tables = s.tables := hc.tables
    have hexec : t.executed = s.executed ++ [s.cur] := by
      rw [State.executed_of_not_busy (by simp [hc.phase]), hlog, h.executed_concat_cur hp]
    have hprod : t.produced = s.produced ++ [t.rsp] := by
      rw [State.produced_of_resp hc.phase, State.produced_of_not_resp (by simp [hp]), hlog]
    rw [htables, hexec, transactAll_concat, h.folds, hprod, ← hval]
  in_flight hb := by simp [hc.phase] at hb

/-- The taken response was already produced (R102). -/
theorem State.OnRunFrom.takeResponse (h : s.OnRunFrom c) (hp : s.phase = .resp) : s.takeResponse.OnRunFrom c where
  folds := by simpa [State.executed, State.produced, hp] using h.folds
  in_flight := nofun

/-- Every edge outside reset keeps a run a run. -/
theorem Edge.keeps_onRunFrom {extra : LatKey → Nat} (he : Edge extra s t) (hrst : s.pins.rst = false)
    (h : s.OnRunFrom c) : t.OnRunFrom c := by
  cases he with
  | reset h1 => simp [hrst] at h1
  | accept _ hp => exact h.advance.acceptWord hp _ _
  | idle | hold => exact h.advance
  | count => exact h.advance.countDown
  | error e _ hp _ hd => exact h.complete hp (completes_raiseError e _) (transact_of_error _ _ hd).symm
  | command i _ _ hp _ hd hx =>
    obtain ⟨hframe, hval⟩ := exec_next hx
    exact h.complete hp hframe (hval.trans (transact_of_ok _ _ hd).symm)
  | take _ hp => exact h.advance.takeResponse hp

/-- Where a run has ended, all accepted words have executed and all responses are taken. -/
theorem State.OnRunFrom.observation (h : s.OnRunFrom c) (he : s.ended) :
    transactAll s.tables c s.log.accepted = (s.cfg, s.log.taken) := by
  have hp : s.phase = .idle := he
  rw [← State.executed_of_not_busy (by simp [hp]), h.folds, State.produced_of_not_resp (by simp [hp])]

end OnRun

/-- Settles O49: every edge keeps the fold, and the word in flight is what the completing edge adds to it. -/
theorem everyRunIsTheFoldOfExec : Obligations.EveryRunIsTheFoldOfExec := by
  refine ⟨fun extra c s t h hstep hrst => ?_, fun c s h he => h.observation he⟩
  obtain ⟨-, -, hedge⟩ := stepWith_cases hstep
  exact hedge.keeps_onRunFrom hrst h

/-- Settles O50: a reset edge leaves IDLE, CONFIGURED = 0 and an empty record. -/
theorem resetStartsARun : Obligations.ResetStartsARun := by
  refine ⟨fun extra s t h hrst => ?_, .of_empty rfl rfl⟩
  obtain ⟨-, -, hedge⟩ := stepWith_cases h
  rw [hedge.eq_of_rst hrst]
  exact ⟨.of_empty rfl rfl, rfl, rfl⟩

end Sys2Proof.Machine
end

section
/-! PROOFS. Runs of several edges (40_control.md R102, R103): the LAT edges from acceptance to the response, the response
held, and a host that brings a list of words to its end. -/

namespace Sys2Proof.Machine

/-! ## Composing runs -/

section Run

variable {extra : LatKey → Nat} {s t : State}

theorem runWith_succ (h : stepWith extra s = .next t) (k : Nat) : runWith extra (k + 1) s = runWith extra k t := by
  simp [runWith, h]

theorem runWith_one (h : stepWith extra s = .next t) : runWith extra 1 s = .next t := runWith_succ h 0

/-- A run of one edge and more steps to a next state. -/
theorem exists_step_of_runWith_succ {k : Nat} (h : runWith extra (k + 1) s = .next t) :
    ∃ u, stepWith extra s = .next u ∧ runWith extra k u = .next t := by
  unfold runWith at h
  split at h
  next u hu => exact ⟨u, hu, h⟩
  next => cases h
  next => cases h

theorem runWith_add {j : Nat} (h : runWith extra j s = .next t) (k : Nat) :
    runWith extra (j + k) s = runWith extra k t := by
  induction j generalizing s with
  | zero =>
    obtain rfl : s = t := Host.Outcome.next.inj h
    rw [Nat.zero_add]
  | succ j ih =>
    obtain ⟨u, hu, hrun⟩ := exists_step_of_runWith_succ h
    rw [Nat.add_right_comm, runWith_succ hu, ih hrun]

end Run

/-! ## A quiet host -/

/-- The host is quiet at the next `n` edges. -/
def QuietFor (n : Nat) (script : List PortIn) : Prop := ∀ j, j < n → (script.drop j).headD .quiet = .quiet

/-- Past the script's end the host is quiet (log 4). -/
theorem quietFor_nil (n : Nat) : QuietFor n [] := fun j _ => by rw [List.drop_nil, List.headD_nil]

theorem quietFor_replicate_append (n : Nat) (rest : List PortIn) :
    QuietFor n (List.replicate n .quiet ++ rest) := by
  intro j hj
  simp [List.headD_eq_head?_getD, List.getElem?_append, hj]

theorem QuietFor.mono {m n : Nat} {script : List PortIn} (h : QuietFor n script) (hmn : m ≤ n) : QuietFor m script :=
  fun j hj => h j (Nat.lt_of_lt_of_le hj hmn)

section Quiet

variable {s : State}

theorem State.pins_of_script {e : PortIn} {rest : List PortIn} (h : s.script = e :: rest) : s.pins = e := by
  rw [State.pins, h, List.headD_cons]

/-- Under a quiet host a step is the edge of its PHASE. -/
theorem stepWith_of_quiet (extra : LatKey → Nat) (h : s.pins = .quiet) :
    stepWith extra s = s.phaseEdge extra exec :=
  stepWith_phaseEdge (State.breaksReadDuty_of_quiet h) (State.breaksOfferDuty_of_quiet h) (congrArg PortIn.rst h)

end Quiet

/-! ## Waiting out the latency, and holding the response (R102) -/

/-- `s` after `j` BUSY edges under a quiet host with no offer standing. -/
def State.counted (j : Nat) (s : State) : State :=
  { s with cyclesLeft := s.cyclesLeft - j, script := s.script.drop j, tick := s.tick + j }

/-- One more quiet edge is one more counted. -/
theorem State.atEdge_counted {s : State} {j : Nat} (hq : (s.counted j).pins = .quiet) (ho : s.offer = none) :
    (s.counted j).atEdge = s.counted (j + 1) := by
  have hoffer : (s.counted j).offerAfter = s.offer := by
    rw [ho, State.offerAfter_of_not_valid (congrArg PortIn.cmdValid hq)]
  rw [State.atEdge, State.countDown, State.advance, hoffer]
  simp [State.counted, Nat.sub_sub, Nat.add_assoc]

section Wait

variable {extra : LatKey → Nat} {s : State}

/-- Before the last BUSY edge the engine counts. -/
theorem runWith_counted {j : Nat} (hp : s.phase = .busy) (ho : s.offer = none) (hq : QuietFor j s.script)
    (hj : j < s.cyclesLeft) : runWith extra j s = .next (s.counted j) := by
  induction j with
  | zero => rfl
  | succ j ih =>
    have hquiet : (s.counted j).pins = .quiet := hq j (Nat.lt_succ_self j)
    have hphase : (s.counted j).phase = .busy := hp
    have hleft : ¬ (s.counted j).cyclesLeft ≤ 1 := Nat.not_le.2 (Nat.lt_sub_of_add_lt (by omega))
    have hstep : stepWith extra (s.counted j) = .next (s.counted j).atEdge := by
      rw [stepWith_of_quiet extra hquiet]
      simp only [State.phaseEdge, hphase, hleft, if_false, State.atEdge]
    rw [runWith_add (ih (hq.mono j.le_succ) (Nat.lt_of_succ_lt hj)), runWith_one hstep, State.atEdge_counted hquiet ho]

/-- The last BUSY edge executes the word: after LAT edges the response is there (R101, R102). -/
theorem runWith_completes {n : Nat} (hp : s.phase = .busy) (hn : s.cyclesLeft = n + 1) (ho : s.offer = none)
    (hq : QuietFor (n + 1) s.script) : ∃ t, runWith extra (n + 1) s = .next t ∧ Completes (s.counted (n + 1)) t ∧
      (t.cfg, t.rsp) = transact s.tables s.cfg s.cur := by
  have hquiet : (s.counted n).pins = .quiet := hq n (Nat.lt_succ_self n)
  have hlast : (s.counted n).cyclesLeft ≤ 1 := Nat.sub_le_iff_le_add'.2 hn.le
  obtain ⟨t, ht, hframe, hval⟩ := (State.completing_of_quiet hquiet hp hlast).stepWith_answers extra
  rw [State.atEdge_counted hquiet ho] at hframe
  refine ⟨t, ?_, hframe, hval⟩
  rw [runWith_add (runWith_counted hp ho (hq.mono n.le_succ) (by omega)), runWith_one ht]

/-- A response that nobody takes is held (R102, R104). -/
theorem runWith_holds (hp : s.phase = .resp) (hs : s.script = []) (m : Nat) :
    ∃ t, runWith extra m s = .next t ∧ t.phase = .resp ∧ (t.cfg, t.rsp) = (s.cfg, s.rsp) := by
  induction m generalizing s with
  | zero => exact ⟨s, rfl, hp, rfl⟩
  | succ m ih =>
    have hquiet : s.pins = .quiet := by rw [State.pins, hs, List.headD_nil]
    have hstep : stepWith extra s = .next s.advance := by
      rw [stepWith_of_quiet extra hquiet]
      simp [State.phaseEdge, hp, hquiet, PortIn.quiet]
    rw [runWith_succ hstep]
    exact ih (s := s.advance) hp (by simp [hs])

end Wait

/-! ## From the offer of a word to its response (R101, R102) -/

/-- `t` holds the response to the word that was offered in `s`, accepted and executed. -/
structure State.AnsweredIn (s t : State) : Prop where
  phase : t.phase = .resp
  result : (t.cfg, t.rsp) = transact s.tables s.cfg s.pins.cmdWord
  tables : t.tables = s.tables
  offer : t.offer = none
  log : t.log = { s.log with accepted := s.log.accepted ++ [s.pins.cmdWord] }

section Transaction

variable {extra : LatKey → Nat} {s : State}

/-- Within LAT edges of acceptance the engine is BUSY. -/
theorem runWith_busy_of_accepts (hread : s.breaksReadDuty = false) (hoffer : s.breaksOfferDuty = false)
    (ha : s.accepts = true) {j : Nat} (hj : j ≤ extra (latKey s.pins.cmdWord s.cfg)) (hq : QuietFor j s.script.tail) :
    ∃ t, runWith extra (1 + j) s = .next t ∧ t.phase = .busy := by
  rw [runWith_add (runWith_one (stepWith_of_accepts extra hread hoffer ha))]
  exact ⟨_, runWith_counted rfl (State.offerAfter_of_accepts ha) hq (Nat.lt_succ_of_le hj), rfl⟩

/-- LAT edges after acceptance the engine holds the word's response. -/
theorem runWith_answers_of_accepts (hread : s.breaksReadDuty = false) (hoffer : s.breaksOfferDuty = false)
    (ha : s.accepts = true) (hq : QuietFor (extra (latKey s.pins.cmdWord s.cfg) + 1) s.script.tail) :
    ∃ t, runWith extra (1 + (extra (latKey s.pins.cmdWord s.cfg) + 1)) s = .next t ∧ s.AnsweredIn t ∧
      t.script = s.script.tail.drop (extra (latKey s.pins.cmdWord s.cfg) + 1) := by
  rw [runWith_add (runWith_one (stepWith_of_accepts extra hread hoffer ha))]
  have hnone : s.advance.offer = none := State.offerAfter_of_accepts ha
  obtain ⟨t, ht, hframe, hval⟩ := runWith_completes (extra := extra)
    (s := s.advance.acceptWord (extra (latKey s.pins.cmdWord s.cfg) + 1) s.pins.cmdWord) rfl rfl hnone hq
  exact ⟨t, ht, ⟨hframe.phase, hval, hframe.tables, hframe.offer.trans hnone, hframe.log⟩, hframe.script⟩

end Transaction

/-- Settles O40: the engine counts LAT edges, completes, and holds, as the host does nothing more. -/
theorem responseComesAfterLatEdges : Obligations.ResponseComesAfterLatEdges := by
  intro extra s e hp hs hrst hv hr hoffer
  obtain rfl : s.pins = e := State.pins_of_script hs
  have htail : s.script.tail = [] := by rw [hs, List.tail_cons]
  have ha : s.accepts = true := s.accepts_iff.2 ⟨hrst, hp, hv⟩
  have hread : s.breaksReadDuty = false := State.breaksReadDuty_of_not_reading hr
  refine ⟨fun j hj => runWith_busy_of_accepts hread hoffer ha hj (htail ▸ quietFor_nil j), fun m => ?_⟩
  obtain ⟨t, ht, hans, htscript⟩ :=
    runWith_answers_of_accepts (extra := extra) hread hoffer ha (htail ▸ quietFor_nil _)
  rw [runWith_add ht, ← hans.result]
  exact runWith_holds hans.phase (by rw [htscript, htail, List.drop_nil]) m

/-! ## A host that runs a list of words (R106) -/

/-- The host offers the word `w`. -/
def PortIn.offering (w : Word) : PortIn := { PortIn.quiet with cmdValid := true, cmdWord := w }

/-- The host takes the response, looking at `rsp_word`. -/
def PortIn.taking : PortIn := { PortIn.quiet with rspReady := true, readsRsp := true }

/-- One command of latency `lat`: its offer, `lat` quiet edges, and the taking. -/
def wordScript (lat : Nat) (w : Word) : List PortIn :=
  .offering w :: (List.replicate lat .quiet ++ [.taking])

theorem wordScript_length (lat : Nat) (w : Word) : (wordScript lat w).length = 1 + lat + 1 := by
  simp [wordScript, Nat.add_comm 1]

/-- The commands `ws` one after the other, each with the latency it has in the configuration it is accepted in. -/
def listScript (extra : LatKey → Nat) (t : Tables) : Cfg → List Word → List PortIn
  | _, [] => []
  | c, w :: ws => wordScript (extra (latKey w c) + 1) w ++ listScript extra t (transact t c w).1 ws

section ListRun

variable {extra : LatKey → Nat} {s : State}

/-- A response held is taken from the engine by a host that is taking. -/
theorem stepWith_of_taking (extra : LatKey → Nat) (hpins : s.pins = .taking) (hp : s.phase = .resp)
    (ho : s.offer = none) : stepWith extra s = .next s.advance.takeResponse := by
  have hrst : s.pins.rst = false := congrArg PortIn.rst hpins
  have hvalid : s.rspValid = true := s.rspValid_iff.2 ⟨hrst, hp⟩
  exact stepWith_of_takes extra (by simp [State.breaksReadDuty, hvalid]) (State.breaksOfferDuty_of_no_offer ho)
    (s.takes_iff.2 ⟨hrst, hp, congrArg PortIn.rspReady hpins⟩)

/-- Such a host brings an idle engine through one command, and leaves it idle with the rest of the script. -/
theorem runWith_wordScript {w : Word} {rest : List PortIn} (hp : s.phase = .idle) (ho : s.offer = none)
    (hs : s.script = wordScript (extra (latKey w s.cfg) + 1) w ++ rest) :
    ∃ t, runWith extra (wordScript (extra (latKey w s.cfg) + 1) w).length s = .next t ∧
      t.phase = .idle ∧ t.offer = none ∧ t.script = rest ∧ t.tables = s.tables ∧
      t.cfg = (transact s.tables s.cfg w).1 ∧
      t.log = { accepted := s.log.accepted ++ [w], taken := s.log.taken ++ [(transact s.tables s.cfg w).2] } := by
  have hpins : s.pins = .offering w := State.pins_of_script hs
  obtain rfl : s.pins.cmdWord = w := congrArg PortIn.cmdWord hpins
  have htail : s.script.tail =
      List.replicate (extra (latKey s.pins.cmdWord s.cfg) + 1) .quiet ++ .taking :: rest := by
    simp [hs, wordScript]
  have ha : s.accepts = true := s.accepts_iff.2 ⟨congrArg PortIn.rst hpins, hp, congrArg PortIn.cmdValid hpins⟩
  obtain ⟨u, hu, hans, huscript⟩ := runWith_answers_of_accepts (extra := extra)
    (State.breaksReadDuty_of_not_reading (congrArg PortIn.readsRsp hpins)) (State.breaksOfferDuty_of_no_offer ho) ha
    (htail ▸ quietFor_replicate_append _ _)
  have htaking : u.script = .taking :: rest := by rw [huscript, htail, List.drop_left' List.length_replicate]
  have hupins : u.pins = .taking := State.pins_of_script htaking
  refine ⟨u.advance.takeResponse, ?_, rfl, State.offerAfter_of_not_valid (congrArg PortIn.cmdValid hupins),
    congrArg List.tail htaking, hans.tables, congrArg Prod.fst hans.result, ?_⟩
  · rw [wordScript_length, runWith_add hu, runWith_one (stepWith_of_taking extra hupins hans.phase hans.offer)]
  · simp [hans.log, ← hans.result]

/-- Such a host brings an idle engine through a list of commands, to the fold of `Exec`. -/
theorem runWith_listScript (ws : List Word) (hp : s.phase = .idle) (ho : s.offer = none)
    (hs : s.script = listScript extra s.tables s.cfg ws) :
    ∃ t, runWith extra (listScript extra s.tables s.cfg ws).length s = .next t ∧ t.phase = .idle ∧
      t.cfg = (transactAll s.tables s.cfg ws).1 ∧ t.log.accepted = s.log.accepted ++ ws ∧
      t.log.taken = s.log.taken ++ (transactAll s.tables s.cfg ws).2 := by
  induction ws generalizing s with
  | nil => exact ⟨s, rfl, hp, rfl, by simp, by simp [transactAll]⟩
  | cons w ws ih =>
    obtain ⟨u, hu, hup, huo, hus, hutables, hucfg, hulog⟩ := runWith_wordScript hp ho hs
    obtain ⟨t, ht, htp, htcfg, hacc, htaken⟩ := ih hup huo (by rw [hus, hutables, hucfg])
    rw [hutables, hucfg] at ht htcfg htaken
    refine ⟨t, ?_, htp, htcfg, by simp [hacc, hulog], by simp [htaken, hulog, transactAll]⟩
    rw [listScript, List.length_append, runWith_add hu, ht]

end ListRun

/-- Settles O51, with the host `listScript` and as many edges as it has entries. -/
theorem everyCommandListRunsToItsEnd : Obligations.EveryCommandListRunsToItsEnd := by
  intro extra ws s hp ho
  obtain ⟨t, ht⟩ := runWith_listScript (extra := extra)
    (s := { s with script := listScript extra s.tables s.cfg ws }) ws hp ho rfl
  exact ⟨_, _, t, ht⟩

end Sys2Proof.Machine
end

section
/-! PROOFS. Words of a legal opcode (30_encoding.md R83): the reserved bits decide whether the word is decoded, and so
what it does at the edge at which it executes. -/

namespace Sys2Proof.Machine

/-- A word of a legal opcode is its command's, or has a reserved bit set. -/
theorem decode_of_opcode {w : Word} {op : BitVec 4} (hop : opcodeOf w = op) (hlegal : op.toNat < 8) :
    decode w = if w &&& rsvdMask op = 0 then .ok (commandOf w) else .error .reservedField := by
  subst hop
  split
  next h => exact decode_eq_ok_iff.2 ⟨hlegal, hasReservedBit_eq_false_iff.2 h, rfl⟩
  next h => exact decode_eq_reservedField_iff.2 ⟨hlegal, hasReservedBit_eq_true_iff.2 h⟩

/-- At the completing edge a word of a legal opcode is performed, or answered RESERVED_FIELD. -/
theorem State.completing.stepWith_of_opcode {s : State} (h : s.completing) (extra : LatKey → Nat) {op : BitVec 4}
    (hop : opcodeOf s.cur = op) (hlegal : op.toNat < 8) :
    stepWith extra s =
      if s.cur &&& rsvdMask op = 0 then exec (commandOf s.cur) s.atEdge
      else .next { s.atEdge with rsp := errorWord .reservedField, phase := .resp } := by
  have hd := decode_of_opcode hop hlegal
  split
  next h0 => exact h.stepWith_of_ok extra (by rw [hd, if_pos h0])
  next h0 => exact h.stepWith_of_error extra (by rw [hd, if_neg h0])

end Sys2Proof.Machine
end

section
/-! PROOFS. The substitution tables and the `SBOX` command (41_sbox.md): no edge writes the tables, a read gives their
cells, the four fields of X are the source's slices, and what `SBOX` answers. -/

namespace Sys2Proof.Machine

/-! ## The tables (R120; 10_state.md R31) -/

/-- No edge writes the tables: not a reset, not a command, not `CFG`. -/
theorem Edge.tables_eq {extra : LatKey → Nat} {s t : State} (h : Edge extra s t) : t.tables = s.tables := by
  cases h with
  | reset | accept | idle | count | error | take | hold => rfl
  | command i _ _ _ _ _ hx => exact (exec_next hx).1.tables

@[simp] theorem Tables.read1_ofCells (s1 s2 : Fin 4 → Fin 16 → Nibble) (p : BitVec 2) (q : BitVec 4) :
    (Tables.ofCells s1 s2).read1 p q = s1 p.toFin q.toFin := by
  simp [Tables.read1, Tables.ofCells]

@[simp] theorem Tables.read2_ofCells (s1 s2 : Fin 4 → Fin 16 → Nibble) (p : BitVec 2) (q : BitVec 4) :
    (Tables.ofCells s1 s2).read2 p q = s2 p.toFin q.toFin := by
  simp [Tables.read2, Tables.ofCells]

/-- A pair of tables holds nothing but its cells. -/
theorem Tables.ofCells_get (t : Tables) :
    Tables.ofCells (fun p q => (t.sbox1.get p).get q) (fun p q => (t.sbox2.get p).get q) = t := by
  have rows (v : Vector (Vector Nibble 16) 4) : (Vector.ofFn fun p => Vector.ofFn fun q => (v.get p).get q) = v := by
    ext p hp q hq : 2
    simp [Vector.get_eq_getElem]
  exact congrArg₂ Tables.mk (rows t.sbox1) (rows t.sbox2)

/-- Settles O46, by the kind of edge a step is. -/
theorem tablesAreNeverWritten : Obligations.TablesAreNeverWritten := by
  intro extra s t h
  obtain ⟨-, -, hedge⟩ := stepWith_cases h
  exact hedge.tables_eq

/-! ## The fields of X (R121) -/

/-- The field at bit `start` is the slice that ends `start` characters before the string's end (00_scope.md R9). -/
theorem chars_extractLsb' {w : Nat} (v : BitVec w) (start len : Nat) (h : start + len ≤ w) :
    chars (v.extractLsb' start len) = slice (w - start - len) (w - start) (chars v) := by
  refine List.ext_getElem ?_ fun i hi _ => ?_
  · simp only [slice, chars_length, List.length_take, List.length_drop]
    omega
  · have hlen : i < len := by simpa using hi
    have hplace : w - (start + len - i) = w - start - len + i := by omega
    have hin : start + len - i ≤ w := by omega
    simp [slice, BitVec.getMsbD_extractLsb', hlen, hplace, hin]

/-- The four fields, joined in order, are all of X. -/
theorem fields_append (x : Key) : fieldP1 x ++ fieldQ1 x ++ fieldP2 x ++ fieldQ2 x = x := by
  unfold fieldP1 fieldQ1 fieldP2 fieldQ2
  rw [Laws.extract_join x 6 4 2, Laws.extract_join x 4 2 6, Laws.extract_join x 0 4 8]
  exact Laws.extract_whole x

/-- Settles O17: each field is a slice by its place, and neighbouring fields join. -/
theorem substitutionFieldsAreTheSlices : Obligations.SubstitutionFieldsAreTheSlices :=
  fun x => ⟨chars_extractLsb' x 10 2 (by decide), chars_extractLsb' x 6 4 (by decide),
    chars_extractLsb' x 4 2 (by decide), chars_extractLsb' x 0 4 (by decide), fields_append x⟩

/-! ## The answer of `SBOX` (R125) -/

/-- An 8-bit result in a response of no error: twelve zeros before it (30_encoding.md R81, R82). -/
theorem rspOf_zext16of8 (v : Half) : rspOf 0 (zext16of8 v) = 0#12 ++ v :=
  (BitVec.append_assoc (x₁ := 0#4) (x₂ := 0#8) (x₃ := v)).symm

/-- `SBOX` reads the tables and writes RSP and PHASE only. -/
theorem exec_sbox (x : Key) (s : State) :
    exec (.sbox x) s = .next { s with rsp := 0#12 ++ sub s.tables x, phase := .resp } := by
  rw [← rspOf_zext16of8]
  rfl

theorem commandOf_of_opcode_sbox {w : Word} (hop : opcodeOf w = 0x5#4) : commandOf w = .sbox (w.extractLsb' 0 12) := by
  simp [commandOf, hop]

/-- Settles O13: the answer is `SUB(X)` by its two reads, and the reserved mask of opcode 5 is the statement's. -/
theorem sboxAnswersSubstitution : Obligations.SboxAnswersSubstitution := by
  refine ⟨exec_sbox, fun extra s h hop => ?_, fun s1 s2 p q => ⟨Tables.read1_ofCells s1 s2 p q,
    Tables.read2_ofCells s1 s2 p q⟩, fun t => ⟨_, _, t.ofCells_get.symm⟩⟩
  rw [h.stepWith_of_opcode extra hop (by decide), commandOf_of_opcode_sbox hop]
  rfl

end Sys2Proof.Machine
end

section
/-! PROOFS. The key schedule and the commands `CFG` and `SKEY` (42_key_schedule.md): as bit-strings the subkeys are the
rotations of the key, so what R140 to R142 say of them is what a list's rotation does; and what the two commands answer. -/

namespace Sys2Proof.Machine

/-! ## Rotation of bit-strings (R140; 00_scope.md R11) -/

/-- A bit-string names one vector of its width, since base-2 parsing gives the number back. -/
theorem chars_injective {w : Nat} : Function.Injective (chars (w := w)) := fun a b h =>
  BitVec.eq_of_toNat_eq (by rw [← parseBase2_chars a, h, parseBase2_chars])

theorem firstToEnd_eq_rotate (s : List Bool) : firstToEnd s = s.rotate 1 := by
  cases s with
  | nil => rfl
  | cons c cs => simp [firstToEnd]

theorem chars_rotateLeft {w : Nat} (v : BitVec w) (i : Nat) : chars (v.rotateLeft i) = (chars v).rotate i := by
  refine List.ext_getElem (by simp) fun j hj _ => ?_
  have hlt : j < w := by simpa using hj
  simp [List.getElem_rotate, BitVec.getMsbD_rotateLeft, hlt, Nat.add_comm]

/-- `v[10:0] ‖ v[11]` is the string without its first character, and then that character. -/
theorem chars_rotl12 (v : Key) : chars (rotl12 v) = (chars v).rotate 1 := by
  have hlow : chars (v.extractLsb' 0 11) = (chars v).drop 1 := by
    rw [chars_extractLsb' v 0 11 (by decide), slice, List.take_of_length_le (by simp)]
  have hfirst : chars (v.extractLsb' 11 1) = (chars v).take 1 := chars_extractLsb' v 11 1 (by decide)
  rw [rotl12, chars_append, hlow, hfirst, List.rotate_eq_drop_append_take (by simp)]

/-! ## The schedule (R140 to R142) -/

/-- The schedule as strings: subkey `i` is the key with `i` characters moved to the end. -/
theorem chars_sk (key : Key) (i : Nat) : chars (sk key i) = (chars key).rotate i := by
  induction i with
  | zero => exact (List.rotate_zero _).symm
  | succ i ih => rw [sk, chars_rotl12, ih, List.rotate_rotate]

theorem sk_eq_rotateLeft (key : Key) (i : Nat) : sk key i = key.rotateLeft i :=
  chars_injective ((chars_sk key i).trans (chars_rotateLeft key i).symm)

theorem sk_mod_twelve (key : Key) (i : Nat) : sk key (i % 12) = sk key i := by
  rw [sk_eq_rotateLeft, sk_eq_rotateLeft, BitVec.rotateLeft_mod_eq_rotateLeft]

theorem sk_add_twelve (key : Key) (i : Nat) : sk key (i + 12) = sk key i := by
  rw [← sk_mod_twelve key (i + 12), Nat.add_mod_right, sk_mod_twelve]

/-- A key that one rotation leaves as it is has a constant schedule. -/
theorem sk_of_rotl12_eq {key : Key} (h : rotl12 key = key) (i : Nat) : sk key i = key := by
  induction i with
  | zero => rfl
  | succ i ih => rw [sk, ih, h]

theorem Cfg.subkey_eq_some_iff (c : Cfg) (i : Nat) : c.subkey i = some (sk c.key i) ↔ i < c.nrounds.toNat := by
  simp [Cfg.subkey]

theorem Cfg.subkey_eq_none_iff (c : Cfg) (i : Nat) : c.subkey i = none ↔ c.nrounds.toNat ≤ i := by
  simp [Cfg.subkey]

/-- Settles O19: the schedule is the rotations of the key, as vectors and as strings. -/
theorem subkeysAreRotationsOfTheKey : Obligations.SubkeysAreRotationsOfTheKey := by
  refine ⟨fun key i => ⟨rfl, sk_eq_rotateLeft key i, (sk_mod_twelve key i).symm, ?_⟩,
    fun c i => ⟨c.subkey_eq_some_iff i, c.subkey_eq_none_iff i⟩⟩
  rw [sk, chars_rotl12, firstToEnd_eq_rotate]

/-- Settles O20: the key has 12 characters, the two constant keys are fixed by a rotation, and a rotation permutes the
characters. -/
theorem scheduleHasPeriodAndNoDiffusion : Obligations.ScheduleHasPeriodAndNoDiffusion := by
  refine ⟨sk_add_twelve, fun i => ⟨sk_of_rotl12_eq (by decide) i, sk_of_rotl12_eq (by decide) i⟩, fun key i => ?_⟩
  rw [chars_sk]
  exact (List.rotate_perm (chars key) i).count_eq true

/-! ## The answer of `CFG` (R144) -/

/-- `CFG` reads nothing of the state it writes. -/
theorem exec_cfg (rounds : BitVec 8) (key : Key) (s : State) : exec (.cfg rounds key) s =
    .next { s with cfg := { configured := true, key := key, nrounds := rounds }, rsp := 0x00000#20, phase := .resp } := rfl

theorem commandOf_of_opcode_cfg {w : Word} (hop : opcodeOf w = 0x1#4) :
    commandOf w = .cfg (w.extractLsb' 20 8) (w.extractLsb' 0 12) := by
  simp [commandOf, hop]

/-- Settles O9: what `CFG` writes names its operands alone, so writing it again changes nothing. -/
theorem cfgWritesConfiguration : Obligations.CfgWritesConfiguration := by
  refine ⟨exec_cfg, fun extra s h hop => ?_, fun rounds key s t h => ?_⟩
  · rw [h.stepWith_of_opcode extra hop (by decide), commandOf_of_opcode_cfg hop]
    rfl
  · rw [exec_cfg] at h
    obtain rfl := Host.Outcome.next.inj h
    rw [exec_cfg]

/-! ## The answer of `SKEY` (R145) -/

/-- A 12-bit result in a response of no error: eight zeros before it (30_encoding.md R81, R82). -/
theorem rspOf_zext16of12 (v : Key) : rspOf 0 (zext16of12 v) = 0#8 ++ v :=
  (BitVec.append_assoc (x₁ := 0#4) (x₂ := 0#4) (x₃ := v)).symm

theorem exec_skey_of_unconfigured {s : State} (h : s.cfg.configured = false) (i : BitVec 8) :
    exec (.skey i) s = .next { s with rsp := 0x30000#20, phase := .resp } :=
  exec_of_unconfigured h (.inr ⟨i, rfl⟩)

/-- An index past the subkey file's end raises SUBKEY_INDEX. -/
theorem exec_skey_of_le {s : State} {i : BitVec 8} (h : s.cfg.configured = true) (hi : s.cfg.nrounds.toNat ≤ i.toNat) :
    exec (.skey i) s = .next { s with rsp := 0x40000#20, phase := .resp } := by
  rw [exec, execSkey, State.ifConfigured_of_configured h, Cfg.subkey_of_le hi]
  rfl

/-- An index of the subkey file is answered with its entry. -/
theorem exec_skey_of_lt {s : State} {i : BitVec 8} (h : s.cfg.configured = true) (hi : i.toNat < s.cfg.nrounds.toNat) :
    exec (.skey i) s = .next { s with rsp := 0#8 ++ s.cfg.key.rotateLeft i.toNat, phase := .resp } := by
  rw [exec, execSkey, State.ifConfigured_of_configured h, (s.cfg.subkey_eq_some_iff i.toNat).2 hi, sk_eq_rotateLeft,
    ← rspOf_zext16of12]
  rfl

theorem commandOf_of_opcode_skey {w : Word} (hop : opcodeOf w = 0x7#4) : commandOf w = .skey (w.extractLsb' 0 8) := by
  simp [commandOf, hop]

/-- Settles O15: the three answers of `SKEY`, and the reserved mask of opcode 7 is the statement's. -/
theorem skeyAnswersSubkey : Obligations.SkeyAnswersSubkey := by
  refine ⟨fun i s h => exec_skey_of_unconfigured h i, fun i s => exec_skey_of_le, fun i s => exec_skey_of_lt,
    fun extra s h hop => ?_⟩
  rw [h.stepWith_of_opcode extra hop (by decide), commandOf_of_opcode_skey hop]
  rfl

end Sys2Proof.Machine
end

section
/-! PROOFS. The expansion, the round and the commands `EXP` and `RND` (43_round_function.md): the expansion's string is the
table's selection, from which its bits follow; a round under the same subkey is undone; and what the two commands answer. -/

namespace Sys2Proof.Machine

/-! ## The expansion (R160; 00_scope.md R8) -/

/-- A one-bit field is a string of one character. -/
theorem chars_extractLsb'_one {w : Nat} (v : BitVec w) (i : Nat) : chars (v.extractLsb' i 1) = [v.getLsbD i] := by
  simp [chars]

/-- Character `i` is bit `w-1-i`. -/
theorem chars_getD {w : Nat} (v : BitVec w) {i : Nat} (hi : i < w) : (chars v).getD i false = v.getLsbD (w - 1 - i) := by
  simp [chars, hi]

theorem selectChars_getD {positions : List Nat} {i : Nat} (hi : i < positions.length) (s : List Bool) :
    (selectChars positions s).getD i false = s.getD (positions.getD i 0 - 1) false := by
  simp [selectChars, hi]

/-- The twelve one-bit fields of the expansion are the characters at the table's positions. -/
theorem chars_expand (r : Half) : chars (expand r) = selectChars permutationTable (chars r) := by
  simp only [expand, chars_append, chars_extractLsb'_one]
  rfl

theorem permutationTable_getD_mem_range {i : Nat} (hi : i < 12) :
    1 ≤ permutationTable.getD i 0 ∧ permutationTable.getD i 0 ≤ 8 := by
  revert i
  decide

/-- The expansion's bits, read off its characters. -/
theorem getLsbD_expand (r : Half) {i : Nat} (hi : i < 12) :
    (expand r).getLsbD (11 - i) = r.getLsbD (8 - permutationTable.getD i 0) := by
  obtain ⟨hlo, hhi⟩ := permutationTable_getD_mem_range hi
  calc (expand r).getLsbD (11 - i)
      = (chars (expand r)).getD i false := (chars_getD (expand r) hi).symm
    _ = (chars r).getD (permutationTable.getD i 0 - 1) false := by rw [chars_expand, selectChars_getD hi]
    _ = r.getLsbD (8 - 1 - (permutationTable.getD i 0 - 1)) := chars_getD r (by omega)
    _ = r.getLsbD (8 - permutationTable.getD i 0) := by rw [Nat.sub_sub, Nat.add_sub_cancel' hlo]

/-- Settles O16: the string is the table's selection, and so each bit is the one that the table names. -/
theorem expansionFollowsTheTable : Obligations.ExpansionFollowsTheTable :=
  ⟨fun r _ => getLsbD_expand r, chars_expand⟩

/-! ## The round (R162 to R164) -/

/-- Under one R and one subkey, two rounds differ as their L halves do. -/
theorem feistelRound_snd_xor (t : Tables) (l m r : Half) (k : Key) :
    (feistelRound t (l, r) k).2 ^^^ (feistelRound t (m, r) k).2 = l ^^^ m :=
  calc (l ^^^ roundF t r k) ^^^ (m ^^^ roundF t r k)
      = l ^^^ ((m ^^^ roundF t r k) ^^^ roundF t r k) := by rw [BitVec.xor_assoc, BitVec.xor_comm (roundF t r k)]
    _ = l ^^^ m := by rw [xor_cancel_right]

/-- The halves before a round, from the halves after it: F is read on the L half, which is the old R. -/
theorem feistelRound_undo (t : Tables) (lr : Half × Half) (k : Key) :
    ((feistelRound t lr k).2 ^^^ roundF t (feistelRound t lr k).1 k, (feistelRound t lr k).1) = lr :=
  Prod.ext (xor_cancel_right lr.1 (roundF t lr.2 k)) rfl

/-- Settles O21: every clause is XOR's cancellation of F, whose argument R a round passes through. -/
theorem roundIsRecoverable : Obligations.RoundIsRecoverable := fun t l m r k =>
  ⟨rfl, feistelRound_snd_xor t l m r k, xor_cancel_right l (roundF t r k), feistelRound_undo t (l, r) k⟩

/-! ## The answer of `EXP` (R165) -/

/-- `EXP` reads nothing of the state and writes RSP and PHASE only. -/
theorem exec_exp (h : Half) (s : State) :
    exec (.exp h) s = .next { s with rsp := 0#8 ++ expand h, phase := .resp } := by
  rw [← rspOf_zext16of12]
  rfl

theorem commandOf_of_opcode_exp {w : Word} (hop : opcodeOf w = 0x6#4) : commandOf w = .exp (w.extractLsb' 0 8) := by
  simp [commandOf, hop]

/-- Settles O14: the reserved mask of opcode 6 is the statement's, and the corner values are computed. -/
theorem expAnswersExpansion : Obligations.ExpAnswersExpansion := by
  refine ⟨exec_exp, fun extra s h hop => ?_, by decide⟩
  rw [h.stepWith_of_opcode extra hop (by decide), commandOf_of_opcode_exp hop]
  rfl

/-! ## The answer of `RND` (R166) -/

/-- `RND` answers with the halves after one round of the block; L and R are left at any value, RC as it was. -/
theorem exec_rnd (k : Key) (b : Block) (s : State) : exec (.rnd k b) s =
    .next { s with
      rsp := rspOf 0 (joinHalves (blockR b) (blockL b ^^^ roundF s.tables (blockR b) k)),
      phase := .resp, work := { l := Config.freeL s.tick, r := Config.freeR s.tick, rc := s.work.rc } } := rfl

theorem commandOf_of_opcode_rnd {w : Word} (hop : opcodeOf w = 0x4#4) :
    commandOf w = .rnd (w.extractLsb' 16 12) (w.extractLsb' 0 16) := by
  simp [commandOf, hop]

/-- Opcode 4 has no reserved bit (30_encoding.md R73), so each of its words is performed. -/
theorem State.completing.stepWith_of_opcode_rnd {s : State} (h : s.completing) (extra : LatKey → Nat)
    (hop : opcodeOf s.cur = 0x4#4) :
    stepWith extra s = exec (.rnd (s.cur.extractLsb' 16 12) (s.cur.extractLsb' 0 16)) s.atEdge := by
  have hnone : s.cur &&& rsvdMask 0x4#4 = 0 := BitVec.and_zero
  rw [h.stepWith_of_opcode extra hop (by decide), if_pos hnone, commandOf_of_opcode_rnd hop]

/-- Settles O12: the answer is one round on the block's halves, `F` is its two table reads by definition, and opcode 4
reserves no bit. -/
theorem rndAnswersOneRound : Obligations.RndAnswersOneRound :=
  ⟨fun k b s => ⟨_, _, exec_rnd k b s⟩, fun _ _ _ => rfl, fun extra _ h => h.stepWith_of_opcode_rnd extra⟩

end Sys2Proof.Machine
end

section
/-! PROOFS. The Feistel cipher (44_feistel_engine.md): both directions are the block function under a list of subkeys, so
each law of the cipher is a law of that list; and what `ENC` and `DEC` answer. -/

namespace Sys2Proof.Machine

/-! ## The rounds under a list of subkeys (R163, R189) -/

theorem roundsWith_append (t : Tables) (ks js : List Key) (lr : Half × Half) :
    roundsWith t (ks ++ js) lr = roundsWith t js (roundsWith t ks lr) := by
  induction ks generalizing lr with
  | nil => rfl
  | cons k ks ih => exact ih (feistelRound t lr k)

/-- A round undoes itself on exchanged halves, and leaves them exchanged. -/
theorem feistelRound_swap (t : Tables) (lr : Half × Half) (k : Key) :
    feistelRound t (feistelRound t lr k).swap k = lr.swap :=
  Prod.ext rfl (xor_cancel_right lr.1 (roundF t lr.2 k))

/-- Reversed subkeys undo the rounds on exchanged halves: the last round is undone first. -/
theorem roundsWith_reverse_swap (t : Tables) (ks : List Key) (lr : Half × Half) :
    roundsWith t ks.reverse (roundsWith t ks lr).swap = lr.swap := by
  induction ks generalizing lr with
  | nil => rfl
  | cons k ks ih => simp only [List.reverse_cons, roundsWith_append, roundsWith, ih, feistelRound_swap]

/-- A sequence of halves, each the round of the one before it, ends where the rounds end. -/
theorem roundsWith_of_recurrence (t : Tables) (ks : List Key) (p : Nat → Half × Half)
    (h : ∀ i, (hi : i < ks.length) → p (i + 1) = feistelRound t (p i) ks[i]) : roundsWith t ks (p 0) = p ks.length := by
  induction ks generalizing p with
  | nil => rfl
  | cons k ks ih =>
    have hfirst : p 1 = feistelRound t (p 0) k := h 0 (Nat.zero_lt_succ _)
    rw [roundsWith, ← hfirst]
    exact ih (fun i => p (i + 1)) fun i hi => h (i + 1) (Nat.succ_lt_succ hi)

/-- The subkeys `SK(0), …, SK(n-1)` (42_key_schedule.md R141). -/
def subkeys (key : Key) (n : Nat) : List Key := (List.range n).map (sk key)

theorem subkeys_succ (key : Key) (n : Nat) : subkeys key (n + 1) = subkeys key n ++ [sk key n] := by
  simp [subkeys, List.range_succ]

theorem subkeys_length (key : Key) (n : Nat) : (subkeys key n).length = n := by
  simp [subkeys]

/-- The subkeys repeat after twelve rounds (42_key_schedule.md R142). -/
theorem subkeys_twelve_add (key : Key) (n : Nat) : subkeys key (12 + n) = subkeys key 12 ++ subkeys key n := by
  have hperiod : (fun i => sk key (12 + i)) = sk key := funext fun i => by rw [Nat.add_comm, sk_add_twelve]
  simp [subkeys, List.range_add, Function.comp_def, hperiod]

theorem roundsAsc_eq_roundsWith (t : Tables) (key : Key) (n : Nat) (lr : Half × Half) :
    roundsAsc t key n lr = roundsWith t (subkeys key n) lr := by
  induction n with
  | zero => rfl
  | succ n ih => rw [subkeys_succ, roundsWith_append, ← ih]; rfl

theorem roundsDesc_eq_roundsWith (t : Tables) (key : Key) (n : Nat) (lr : Half × Half) :
    roundsDesc t key n lr = roundsWith t (subkeys key n).reverse lr := by
  induction n generalizing lr with
  | zero => rfl
  | succ n ih => rw [subkeys_succ, List.reverse_concat, roundsDesc, ih]; rfl

/-! ## The block functions (R180, R181, R184 to R187, R189) -/

theorem encrypt_eq_encryptWith (t : Tables) (key : Key) (n : Nat) : encrypt t key n = encryptWith t (subkeys key n) := by
  funext b
  rw [encrypt, roundsAsc_eq_roundsWith, encryptWith]

theorem decrypt_eq_encryptWith (t : Tables) (key : Key) (n : Nat) :
    decrypt t key n = encryptWith t (subkeys key n).reverse := by
  funext b
  rw [decrypt, roundsDesc_eq_roundsWith, encryptWith]

/-- The final arrangement `R ‖ L`: the result's halves are the last round's, exchanged. -/
theorem halves_encryptWith (t : Tables) (ks : List Key) (b : Block) :
    (blockL (encryptWith t ks b), blockR (encryptWith t ks b)) = (roundsWith t ks (blockL b, blockR b)).swap := by
  simp [encryptWith, Prod.swap]

/-- A list of subkeys and its reverse are inverse block functions. -/
theorem encryptWith_reverse_encryptWith (t : Tables) (ks : List Key) (b : Block) :
    encryptWith t ks.reverse (encryptWith t ks b) = b := by
  rw [encryptWith, halves_encryptWith, roundsWith_reverse_swap]
  exact joinHalves_blocks b

theorem decrypt_encrypt (t : Tables) (key : Key) (n : Nat) (b : Block) : decrypt t key n (encrypt t key n b) = b := by
  rw [decrypt_eq_encryptWith, encrypt_eq_encryptWith, encryptWith_reverse_encryptWith]

theorem encrypt_decrypt (t : Tables) (key : Key) (n : Nat) (c : Block) : encrypt t key n (decrypt t key n c) = c := by
  simpa [encrypt_eq_encryptWith, decrypt_eq_encryptWith] using
    encryptWith_reverse_encryptWith t (subkeys key n).reverse c

/-- Going on under more subkeys takes the result with its halves exchanged back. -/
theorem encryptWith_append (t : Tables) (ks js : List Key) (b : Block) :
    encryptWith t (ks ++ js) b = encryptWith t js (swap16 (encryptWith t ks b)) := by
  simp [encryptWith, roundsWith_append, swap16]

/-- The block function by the recurrence of its rounds. -/
theorem encryptWith_of_recurrence {t : Tables} {ks : List Key} {b : Block} {l r : Nat → Half}
    (hl : l 0 = blockL b) (hr : r 0 = blockR b)
    (h : ∀ i, (hi : i < ks.length) → l (i + 1) = r i ∧ r (i + 1) = l i ^^^ roundF t (r i) ks[i]) :
    encryptWith t ks b = r ks.length ++ l ks.length := by
  have hrounds := roundsWith_of_recurrence t ks (fun i => (l i, r i)) fun i hi => Prod.ext (h i hi).1 (h i hi).2
  rw [encryptWith, ← hl, ← hr, hrounds]
  rfl

theorem encrypt_zero (t : Tables) (key : Key) (b : Block) : encrypt t key 0 b = swap16 b := rfl

theorem decrypt_zero (t : Tables) (key : Key) (b : Block) : decrypt t key 0 b = swap16 b := rfl

theorem encrypt_one (t : Tables) (key : Key) (b : Block) :
    encrypt t key 1 b = joinHalves (blockL b ^^^ roundF t (blockR b) key) (blockR b) := rfl

/-- One subkey is its own reverse. -/
theorem decrypt_one (t : Tables) (key : Key) : decrypt t key 1 = encrypt t key 1 := rfl

theorem encrypt_one_involutive (t : Tables) (key : Key) : Function.Involutive (encrypt t key 1) :=
  decrypt_encrypt t key 1

theorem swap16_joinHalves (hi lo : Half) : swap16 (joinHalves hi lo) = joinHalves lo hi := by
  rw [swap16, blockL_joinHalves, blockR_joinHalves]

/-- Settles O22: reversed subkeys undo the rounds. -/
theorem decryptInvertsEncrypt : Obligations.DecryptInvertsEncrypt := decrypt_encrypt

/-- Settles O23: the subkeys are the reverse of their reverse, so each direction inverts the other. -/
theorem encryptIsABijection : Obligations.EncryptIsABijection := fun t key n =>
  ⟨encrypt_decrypt t key n,
    Function.bijective_iff_has_inverse.2 ⟨decrypt t key n, decrypt_encrypt t key n, encrypt_decrypt t key n⟩⟩

/-- Settles O27: each loop is the rounds under its list. -/
theorem decryptIsEncryptUnderReversedSubkeys : Obligations.DecryptIsEncryptUnderReversedSubkeys := fun t key n b =>
  ⟨congrFun (encrypt_eq_encryptWith t key n) b, congrFun (decrypt_eq_encryptWith t key n) b⟩

/-- Settles O28: past the twelfth the list of subkeys begins anew. -/
theorem encryptionSplitsAtThePeriod : Obligations.EncryptionSplitsAtThePeriod := fun t key n b => by
  simp only [encrypt_eq_encryptWith, subkeys_twelve_add, encryptWith_append]

/-- Settles O56: entry `i` of the subkeys is `SK(i)`, and of their reverse `SK(n-1-i)`. -/
theorem cipherIsTheRoundLoop : Obligations.CipherIsTheRoundLoop := by
  intro t key n b l r hl hr
  constructor
  · intro h
    rw [encrypt_eq_encryptWith, encryptWith_of_recurrence hl hr, subkeys_length]
    intro i hi
    simpa [subkeys] using h i (by simpa [subkeys_length] using hi)
  · intro h
    rw [decrypt_eq_encryptWith, encryptWith_of_recurrence hl hr, List.length_reverse, subkeys_length]
    intro i hi
    simpa [subkeys] using h i (by simpa [subkeys_length] using hi)

/-! ## The answers of `ENC` and `DEC` (R182, R183) -/

/-- A response after work on the registers alone, written out as one update of the state before that work. -/
theorem SameButWork.respond_releaseWork {s t : State} (h : SameButWork s t) (d : BitVec 16) :
    (t.respond d).releaseWork = { s with rsp := 0#4 ++ d, phase := .resp, work := s.releaseWork.work } := by
  rw [h.eq_with]
  rfl

/-- RC is left at a legal value (10_state.md R29). -/
theorem State.releaseWork_rc_legal (s : State) : s.releaseWork.work.rc.toNat ≤ 254 := ofNat_rc_legal _

theorem rspOf_zero (d : BitVec 16) : rspOf 0 d = 0#4 ++ d := rfl

/-- The DATA of a response with error code 0 (30_encoding.md R81). -/
theorem data_of_success (d : BitVec 16) : (0#4 ++ d).extractLsb' 0 16 = d :=
  (Laws.extract_append_low 0#4 d 0 16 (by decide)).trans (Laws.extract_whole d)

section Configured

variable {s : State}

theorem exec_enc_of_configured (h : s.cfg.configured = true) (b : Block) : exec (.enc b) s =
    .next { s with
      rsp := 0#4 ++ encrypt s.tables s.cfg.key s.cfg.nrounds.toNat b,
      phase := .resp, work := s.releaseWork.work } := by
  have hframe := (State.roundsUp_sameButWork s.cfg.nrounds.toNat (s.loadBlock b)).of_loadBlock
  rw [exec, execEnc, State.ifConfigured_of_configured h, ← State.roundsUp_finalBlock]
  exact congrArg Host.Outcome.next (hframe.respond_releaseWork _)

theorem exec_dec_of_configured (h : s.cfg.configured = true) (c : Block) : exec (.dec c) s =
    .next { s with
      rsp := 0#4 ++ decrypt s.tables s.cfg.key s.cfg.nrounds.toNat c,
      phase := .resp, work := s.releaseWork.work } := by
  have hframe := (State.roundsDown_sameButWork s.cfg.nrounds.toNat (s.loadBlock c)).of_loadBlock
  rw [exec, execDec, State.ifConfigured_of_configured h, ← State.roundsDown_finalBlock]
  exact congrArg Host.Outcome.next (hframe.respond_releaseWork _)

end Configured

theorem commandOf_of_opcode_enc {w : Word} (hop : opcodeOf w = 0x2#4) : commandOf w = .enc (w.extractLsb' 0 16) := by
  simp [commandOf, hop]

theorem commandOf_of_opcode_dec {w : Word} (hop : opcodeOf w = 0x3#4) : commandOf w = .dec (w.extractLsb' 0 16) := by
  simp [commandOf, hop]

/-- Settles O10: the ascending loop on the registers leaves the ciphertext, and the reserved mask of opcode 2 is the
statement's. -/
theorem encAnswersCiphertext : Obligations.EncAnswersCiphertext := by
  refine ⟨fun b s h => ⟨_, s.releaseWork_rc_legal, exec_enc_of_configured h b⟩,
    fun b s h => exec_of_unconfigured h (.inl ⟨b, .inl rfl⟩), fun extra s h hop => ?_⟩
  rw [h.stepWith_of_opcode extra hop (by decide), commandOf_of_opcode_enc hop]
  rfl

/-- Settles O11: the descending loop on the registers leaves the plaintext, and the reserved mask of opcode 3 is the
statement's. -/
theorem decAnswersPlaintext : Obligations.DecAnswersPlaintext := by
  refine ⟨fun b s h => ⟨_, s.releaseWork_rc_legal, exec_dec_of_configured h b⟩,
    fun b s h => exec_of_unconfigured h (.inl ⟨b, .inr rfl⟩), fun extra s h hop => ?_⟩
  rw [h.stepWith_of_opcode extra hop (by decide), commandOf_of_opcode_dec hop]
  rfl

/-- Settles O24: `ENC` leaves the configuration and the tables, so `DEC` inverts it under the same subkeys. -/
theorem encThenDecAnswersTheBlock : Obligations.EncThenDecAnswersTheBlock := by
  intro b s h
  refine ⟨_, _, exec_enc_of_configured h b, exec_dec_of_configured ?_ _, ?_, rfl⟩
  · exact h
  · rw [data_of_success, decrypt_encrypt]

/-- Settles O25: with no rounds the final arrangement is all that either direction does. -/
theorem zeroRoundsSwapTheHalves : Obligations.ZeroRoundsSwapTheHalves := by
  intro b s h hn
  have hzero : s.cfg.nrounds.toNat = 0 := by rw [hn]; rfl
  have henc := exec_enc_of_configured h b
  have hdec := exec_dec_of_configured h b
  rw [hzero, encrypt_zero] at henc
  rw [hzero, decrypt_zero] at hdec
  exact ⟨_, _, henc, rfl, hdec, rfl⟩

/-- Settles O26: both directions are the one round under KEY, which `RND` answers with its halves the other way round. -/
theorem oneRoundCipherIsRndSwapped : Obligations.OneRoundCipherIsRndSwapped := by
  intro b s h hn
  have hone : s.cfg.nrounds.toNat = 1 := by rw [hn]; rfl
  have henc := exec_enc_of_configured h
  have hdec := exec_dec_of_configured h
  simp only [hone, decrypt_one] at henc hdec
  refine ⟨_, _, _, henc b, hdec b, exec_rnd s.cfg.key b s, rfl, rfl, ?_, _, henc _, ?_⟩
  · simp only [rspOf_zero, data_of_success, swap16_joinHalves, encrypt_one]
  · rw [data_of_success, encrypt_one_involutive]

/-! ## What a response depends on (R188; 40_control.md R101) -/

/-- Settles O29: configuration and response are the command's transaction, which reads the tables and the configuration. -/
theorem responseDependsOnConfigurationAlone : Obligations.ResponseDependsOnConfigurationAlone := by
  intro i s t hcfg htables
  obtain ⟨u, hu, huval⟩ := exec_answers i s
  obtain ⟨v, hv, hvval⟩ := exec_answers i t
  have hsame : (u.cfg, u.rsp) = (v.cfg, v.rsp) := by rw [huval, hvval, hcfg, htables]
  obtain ⟨hc, hr⟩ := Prod.mk.inj hsame
  exact ⟨u, v, hu, hv, hr, hc⟩

end Sys2Proof.Machine
end

section
/-! PROOFS. The error responses (60_exceptions.md R200 to R206): which error a word is answered with, that an error's step
writes RSP and PHASE alone, and that nothing but a broken host duty stops a step (R213). -/

namespace Sys2Proof.Machine

/-! ## The ERR field of a response (30_encoding.md R81) -/

@[simp] theorem rspOf_err (err : BitVec 4) (data : BitVec 16) : (rspOf err data).extractLsb' 16 4 = err :=
  (Laws.extract_append_high err data 16 4 (Nat.le_refl 16)).trans (Laws.extract_whole err)

/-- The ERR field of a decoded command's response is the code of the error `precheck` gives, if any (R203). -/
theorem performChecked_err (t : Tables) (c : Cfg) (i : Instr) :
    (performChecked t c i).2.extractLsb' 16 4 = (precheck c i).elim 0 ErrCode.code := by
  unfold performChecked
  cases precheck c i with
  | some e => exact rspOf_err e.code 0
  | none => exact rspOf_err 0 _

/-! ## The error `precheck` gives (R203) -/

/-- `precheck` for the command of a word with a legal opcode, read off the word's bits. -/
theorem precheck_commandOf (c : Cfg) {w : Word} (hlegal : (opcodeOf w).toNat < 8) : precheck c (commandOf w) =
    if (opcodeOf w).toNat ∈ [2, 3, 7] ∧ c.configured = false then some .notConfigured
    else if (opcodeOf w).toNat = 7 ∧ c.nrounds.toNat ≤ w.toNat % 2 ^ 8 then some .subkeyIndex
    else none := by
  unfold commandOf
  split
  case h_1 hop | h_2 hop | h_5 hop | h_6 hop | h_7 hop => simp [hop, precheck] -- the commands of no check
  case h_3 hop | h_4 hop => -- `ENC` and `DEC`
    cases hc : c.configured <;> simp [hop, precheck, hc]
  case h_8 h0 h1 h2 h3 h4 h5 h6 => -- `SKEY`
    have hop : (opcodeOf w).toNat = 7 := by simp only [imp_false] at h0 h1 h2 h3 h4 h5 h6; omega
    cases hc : c.configured <;> simp [hop, precheck, hc, BitVec.le_def]

/-- `precheck` stops a command for want of a configuration, or `SKEY` for an index past the subkey file's end. -/
theorem precheck_cases {c : Cfg} {i : Instr} {e : ErrCode} (h : precheck c i = some e) :
    (c.configured = false ∧ NeedsConfig i ∧ e = .notConfigured) ∨
    (c.configured = true ∧ ∃ j, i = .skey j ∧ c.nrounds.toNat ≤ j.toNat ∧ e = .subkeyIndex) := by
  cases i with
  | nop | cfg rounds key | rnd k b | sbox x | exp half => cases h
  | enc b | dec b =>
    cases hc : c.configured with
    | true => simp [precheck, hc] at h
    | false => exact .inl ⟨rfl, .inl ⟨b, by simp⟩, by simpa [precheck, hc] using h.symm⟩
  | skey j =>
    cases hc : c.configured with
    | true =>
      obtain ⟨hj, he⟩ : c.nrounds ≤ j ∧ ErrCode.subkeyIndex = e := by simpa [precheck, hc] using h
      exact .inr ⟨rfl, j, rfl, BitVec.le_def.1 hj, he.symm⟩
    | false => exact .inl ⟨rfl, .inr ⟨j, rfl⟩, by simpa [precheck, hc] using h.symm⟩

/-- A command that `precheck` stops answers that error and does nothing else. -/
theorem exec_of_precheck {i : Instr} {s : State} {e : ErrCode} (h : precheck s.cfg i = some e) :
    exec i s = .next (s.raiseError e) := by
  obtain ⟨hc, hi, rfl⟩ | ⟨hc, j, rfl, hj, rfl⟩ := precheck_cases h
  · exact exec_of_unconfigured hc hi
  · exact exec_skey_of_le hc hj

/-- The step of a completing word whose response has an error code is `raiseError` at the edge (R201). -/
theorem State.completing.eq_raiseError {s t : State} (h : s.completing) {extra : LatKey → Nat}
    (ht : stepWith extra s = .next t) (herr : t.rsp.extractLsb' 16 4 ≠ 0) : ∃ e, t = s.atEdge.raiseError e := by
  cases hd : decode s.cur with
  | error e => exact ⟨e, Host.Outcome.next.inj (ht.symm.trans (h.stepWith_of_error extra hd))⟩
  | ok i =>
    have hx : exec i s.atEdge = .next t := (h.stepWith_of_ok extra hd).symm.trans ht
    cases hpre : precheck s.atEdge.cfg i with
    | some e => exact ⟨e, Host.Outcome.next.inj (hx.symm.trans (exec_of_precheck hpre))⟩
    | none =>
      have hrsp : t.rsp = (performChecked s.atEdge.tables s.atEdge.cfg i).2 := congrArg Prod.snd (exec_next hx).2
      rw [hrsp, performChecked_err, hpre] at herr
      exact absurd rfl herr

/-! ## What stops a step (R213; 40_control.md R104) -/

theorem State.breaksReadDuty_iff (s : State) :
    s.breaksReadDuty = true ↔ s.pins.readsRsp = true ∧ ¬(s.pins.rst = false ∧ s.phase = .resp) := by
  rw [← s.rspValid_iff, Bool.not_eq_true, State.breaksReadDuty, Bool.and_eq_true, Bool.not_eq_true']

theorem State.breaksOfferDuty_iff (s : State) : s.breaksOfferDuty = true ↔
    s.pins.rst = false ∧ s.pins.cmdValid = true ∧ ∃ w, s.offer = some w ∧ w ≠ s.pins.cmdWord := by
  simp [State.breaksOfferDuty, Option.any_eq_true, and_assoc]

section Duties

variable {extra : LatKey → Nat} {s : State}

theorem stepWith_of_breaksReadDuty (h : s.breaksReadDuty = true) :
    stepWith extra s = .refused .hostReadInvalidRsp := if_pos h

theorem stepWith_of_breaksOfferDuty (hread : s.breaksReadDuty = false) (h : s.breaksOfferDuty = true) :
    stepWith extra s = .refused .hostChangedCmdWord := by
  simp [stepWith, State.clockEdge, hread, h]

/-- Every PHASE has an edge out of it, whatever the word. -/
theorem exists_phaseEdge (extra : LatKey → Nat) (s : State) : ∃ t, s.phaseEdge extra exec = .next t := by
  unfold State.phaseEdge
  split
  next => split <;> exact ⟨_, rfl⟩
  next =>
    split
    · obtain ⟨t, ht, -⟩ := completeWith_completes s.advance.countDown
      exact ⟨t, ht⟩
    · exact ⟨_, rfl⟩
  next => split <;> exact ⟨_, rfl⟩

/-- A step under a host that keeps its duties answers a next state. -/
theorem exists_stepWith_of_duties_kept (hread : s.breaksReadDuty = false) (hoffer : s.breaksOfferDuty = false) :
    ∃ t, stepWith extra s = .next t := by
  cases hrst : s.pins.rst with
  | true => exact ⟨s.advance.applyReset, by simp [stepWith, State.clockEdge, hread, hoffer, hrst]⟩
  | false =>
    rw [stepWith_phaseEdge hread hoffer hrst]
    exact exists_phaseEdge extra s

end Duties

/-- Settles O30: the decoder's two errors come first, then the two of `precheck`, each read off the word's bits. -/
theorem errorPriorityIsTheFirstThatApplies : Obligations.ErrorPriorityIsTheFirstThatApplies := by
  intro extra s h
  obtain ⟨t, ht, hframe, hval⟩ := h.stepWith_answers extra
  have hrsp : t.rsp = (transact s.tables s.cfg s.cur).2 := congrArg Prod.snd hval
  refine ⟨t, ht, hframe.phase, ?_⟩
  rw [hrsp, ← opcodeOf_toNat]
  split
  next hop =>
    rw [transact_of_error _ _ (decode_eq_illegalOpcode_iff.2 hop), errorWord, rspOf_err]
    rfl
  next hop =>
    have hlegal := Nat.not_le.1 hop
    split
    next hr =>
      rw [transact_of_error _ _ (decode_eq_reservedField_iff.2 ⟨hlegal, hasReservedBit_eq_true_iff.2 hr⟩),
        errorWord, rspOf_err]
      rfl
    next hr =>
      have hd := decode_eq_ok_iff.2 ⟨hlegal, hasReservedBit_eq_false_iff.2 (not_not.1 hr), rfl⟩
      rw [transact_of_ok _ _ hd, performChecked_err, precheck_commandOf s.cfg hlegal]
      split
      · rfl
      · split <;> rfl

/-- Settles O31: the state after an error is `raiseError` at the edge, in RESP, whose response a ready host takes. -/
theorem errorResponseWritesNothingElse : Obligations.ErrorResponseWritesNothingElse := by
  intro extra s t h ht herr
  obtain ⟨e, rfl⟩ := h.eq_raiseError ht herr
  refine ⟨?_, rfl, _, stepWith_of_takes extra rfl rfl rfl, rfl⟩
  rw [State.raiseError_rsp, errorWord, rspOf_err]
  rfl

/-- Settles O42: the two refusals are the two broken duties, the read first, and every other step is an edge. -/
theorem stepStopsOnlyOnABrokenDuty : Obligations.StepStopsOnlyOnABrokenDuty := by
  intro extra s
  rw [← s.breaksReadDuty_iff, ← s.breaksOfferDuty_iff]
  cases hread : s.breaksReadDuty with
  | true => simp [stepWith_of_breaksReadDuty hread]
  | false =>
    cases hoffer : s.breaksOfferDuty with
    | true => simp [stepWith_of_breaksOfferDuty hread hoffer]
    | false =>
      obtain ⟨t, ht⟩ := exists_stepWith_of_duties_kept (extra := extra) hread hoffer
      simp [ht]

end Sys2Proof.Machine
end

section
/-! PROOFS. Several engines on one platform (60_exceptions.md R210): what they share is the tables, which no step writes. -/

namespace Sys2Proof.Machine

/-- A set configuration is its KEY and its NROUNDS. -/
theorem Cfg.eq_of_configured {c d : Cfg} (hc : c.configured = true) (hd : d.configured = true) (hkey : c.key = d.key)
    (hrounds : c.nrounds = d.nrounds) : c = d :=
  (Cfg.mk.injEq ..).mpr ⟨hc.trans hd.symm, hkey, hrounds⟩

/-- Settles O57: engines configured alike have one configuration and one copy of the tables, on which a response
depends alone (44_feistel_engine.md R188). -/
theorem enginesConfiguredAlikeAgree : Obligations.EnginesConfiguredAlikeAgree := by
  intro p i j s t hs ht
  have hst := Platform.engine_tables hs
  have htt := Platform.engine_tables ht
  refine ⟨hst, htt, fun hsc htc hkey hrounds b => ?_⟩
  have hcfg : s.cfg = t.cfg := Cfg.eq_of_configured hsc htc hkey hrounds
  have agree (c : Instr) : ∃ u v, exec c s = .next u ∧ exec c t = .next v ∧ u.rsp = v.rsp := by
    obtain ⟨u, v, hu, hv, hrsp, -⟩ := responseDependsOnConfigurationAlone c s t hcfg (hst.trans htt.symm)
    exact ⟨u, v, hu, hv, hrsp⟩
  exact ⟨agree (.enc b), agree (.dec b)⟩

/-- Settles O53: a platform's step writes one engine, whose step leaves the tables as the platform's. -/
theorem enginesShareNothing : Obligations.EnginesShareNothing := by
  intro p q i h
  obtain ⟨s, t, hs, ht, rfl⟩ := Platform.stepAt_cases h
  refine ⟨rfl, fun j => p.engine_setEngine_ne t, s, t, hs, ?_, ht⟩
  rw [Platform.engine_setEngine_self t hs, ← Platform.engine_tables hs, ← tablesAreNeverWritten _ s t ht]

end Sys2Proof.Machine
end

section
/-! PROOFS. Reset and latency (70_reset_and_hazards.md R230, R231, R239, R240): the whole next state of a reset edge, which
names neither PHASE nor a word in flight, and what the number of edges to go is a function of. -/

namespace Sys2Proof.Machine

/-! ## The reset edge (R230) -/

section Reset

variable {s : State}

theorem State.cmdReady_of_rst (h : s.pins.rst = true) : s.cmdReady = false := by
  simp [State.cmdReady, h]

theorem State.rspValid_of_rst (h : s.pins.rst = true) : s.rspValid = false := by
  simp [State.rspValid, h]

theorem State.accepts_of_rst (h : s.pins.rst = true) : s.accepts = false := by
  simp [State.accepts, State.cmdReady_of_rst h]

theorem State.takes_of_rst (h : s.pins.rst = true) : s.takes = false := by
  simp [State.takes, State.rspValid_of_rst h]

/-- No offer stands after a reset cycle (log 12). -/
theorem State.offerAfter_of_rst (h : s.pins.rst = true) : s.offerAfter = none := by
  simp [State.offerAfter, h]

/-- The host's word is not looked at in a reset cycle (log 12). -/
theorem State.breaksOfferDuty_of_rst (h : s.pins.rst = true) : s.breaksOfferDuty = false := by
  simp [State.breaksOfferDuty, h]

/-- With `rst = 1`, and no premature read of the response, a step resets, whatever PHASE and the other inputs are. -/
theorem stepWith_of_rst (extra : LatKey → Nat) (hrst : s.pins.rst = true) (hread : s.pins.readsRsp = false) :
    stepWith extra s = .next { s with
      phase := .idle, cfg := { s.cfg with configured := false }, log := { accepted := [], taken := [] },
      script := s.script.tail, offer := none, tick := s.tick + 1 } := by
  obtain ⟨t, ht⟩ := exists_stepWith_of_duties_kept (extra := extra)
    (State.breaksReadDuty_of_not_reading hread) (State.breaksOfferDuty_of_rst hrst)
  obtain ⟨-, -, hedge⟩ := stepWith_cases ht
  rw [ht, hedge.eq_of_rst hrst, ← State.offerAfter_of_rst hrst]
  rfl

end Reset

/-! ## The edges to go after acceptance (R239, R240) -/

/-- An accepting step leaves LAT = extra + 1 edges to go (40_control.md R102). -/
theorem cyclesLeft_of_accepts {extra : LatKey → Nat} {s t : State} (h : stepWith extra s = .next t)
    (ha : s.accepts = true) : t.cyclesLeft = extra (latKey s.pins.cmdWord s.cfg) + 1 := by
  obtain ⟨hread, hoffer, -⟩ := stepWith_cases h
  obtain rfl := Host.Outcome.next.inj ((stepWith_of_accepts extra hread hoffer ha).symm.trans h)
  rfl

/-- LAT sees of a word its opcode, its class and the ROUNDS of a `CFG`, and of the configuration CONFIGURED and NROUNDS
(log 6). -/
theorem latKey_eq_of_class {x y : Word} {c d : Cfg} (hop : opcodeOf x = opcodeOf y)
    (hclass : hasReservedBit x = hasReservedBit y)
    (hrounds : opcodeOf x = 0x1#4 → x.extractLsb' 20 8 = y.extractLsb' 20 8)
    (hconf : c.configured = d.configured) (hn : c.nrounds = d.nrounds) : latKey x c = latKey y d := by
  rw [latKey, latKey, LatKey.mk.injEq]
  exact ⟨hop, hclass, hop ▸ ite_congr rfl hrounds fun _ => rfl, by rw [hconf, hn]⟩

theorem hasReservedBit_congr {x y : Word}
    (h : x &&& rsvdMask (opcodeOf x) = 0 ↔ y &&& rsvdMask (opcodeOf y) = 0) : hasReservedBit x = hasReservedBit y := by
  rwa [← hasReservedBit_eq_false_iff, ← hasReservedBit_eq_false_iff, Bool.coe_false_iff_false, Bool.not_inj_iff] at h

/-- A command whose word has the opcode of `CFG` is the `CFG` of that word's fields. -/
theorem eq_cfg_of_opcodeOf_encode {i : Instr} (h : opcodeOf (encode i) = 0x1#4) :
    i = .cfg ((encode i).extractLsb' 20 8) ((encode i).extractLsb' 0 12) :=
  (commandOf_encode i).symm.trans (commandOf_of_opcode_cfg h)

/-- Where two commands of one kind are `CFG`s with one ROUNDS, their words have one ROUNDS field. -/
theorem rounds_encode_eq {i j : Instr} (hkind : i.matchWord = j.matchWord)
    (hcfg : ∀ n k, i = .cfg n k → ∃ k', j = .cfg n k') (hop : opcodeOf (encode i) = 0x1#4) :
    (encode i).extractLsb' 20 8 = (encode j).extractLsb' 20 8 := by
  obtain ⟨k, hk⟩ := hcfg _ _ (eq_cfg_of_opcodeOf_encode hop)
  have hj := eq_cfg_of_opcodeOf_encode (i := j) (by rw [← hop, opcodeOf_encode, opcodeOf_encode, hkind])
  exact (Instr.cfg.inj (hk.symm.trans hj)).1

/-- Settles O41: the edges to go are a function of `latKey`, which sees a word's class; two commands of one kind have
words of one class. -/
theorem latencyIgnoresData : Obligations.LatencyIgnoresData := by
  refine ⟨fun extra i j s t u v hkind hcfg hs ht hsa hta hconf hn hu hv => ?_,
    fun extra x y s t u v hop hclass hrounds hs ht hsa hta hconf hn hu hv => ?_⟩ <;>
    rw [cyclesLeft_of_accepts hu hsa, cyclesLeft_of_accepts hv hta, hs, ht]
  · have hop : opcodeOf (encode i) = opcodeOf (encode j) := by rw [opcodeOf_encode, opcodeOf_encode, hkind]
    have hclass : hasReservedBit (encode i) = hasReservedBit (encode j) := by
      rw [hasReservedBit_encode, hasReservedBit_encode]
    rw [latKey_eq_of_class hop hclass (rounds_encode_eq hkind hcfg) hconf hn]
  · rw [latKey_eq_of_class hop (hasReservedBit_congr hclass) hrounds hconf hn]

/-- Settles O37: the next state is the one the statement writes out, and PHASE is IDLE there. -/
theorem resetEdgeClearsPhaseAndConfigured : Obligations.ResetEdgeClearsPhaseAndConfigured := by
  intro extra s hrst hread
  refine ⟨State.cmdReady_of_rst hrst, State.rspValid_of_rst hrst, State.accepts_of_rst hrst, State.takes_of_rst hrst,
    stepWith_of_rst extra hrst hread, fun t ht ht0 => t.cmdReady_iff.2 ⟨ht0, ?_⟩⟩
  obtain ⟨-, -, hedge⟩ := stepWith_cases ht
  rw [hedge.eq_of_rst hrst, State.applyReset_phase]

/-- Settles O38: PHASE does not occur in a reset edge's next state, and KEY and NROUNDS stand there as they stood. -/
theorem resetAbandonsTheCommandInFlight : Obligations.ResetAbandonsTheCommandInFlight := by
  intro extra s hrst hread
  have hidle : stepWith extra { s with phase := .idle } = stepWith extra s := by
    rw [stepWith_of_rst extra hrst hread]
    exact stepWith_of_rst (s := { s with phase := .idle }) extra hrst hread
  exact ⟨hidle.symm, _, stepWith_of_rst extra hrst hread, rfl, rfl, rfl, rfl, rfl⟩

end Sys2Proof.Machine
end
